-- ==== Sys2Proof/Word.lean ====
section
/-! DEFINITION. The widths of the BPF ISA: 64-bit registers and addresses, 32-bit halves and immediates,
16-bit offsets, bytes, and the register numbers R0 to R10. -/

namespace Sys2Proof

/-- A 64-bit value: the contents of a register (R30), an address (R60). -/
abbrev Word64 := BitVec 64

/-- A 32-bit value: the low half of a register (R32), an immediate field (R100). -/
abbrev Word32 := BitVec 32

/-- The 16-bit `offset` field (R100). -/
abbrev Off := BitVec 16

/-- A byte of memory or of an instruction slot (R60, R101). -/
abbrev Byte := BitVec 8

/-- A register number, 0 to 10 (R30). -/
abbrev Reg := Fin 11

/-- The low 32 bits of a register value, the view of classes ALU and JMP32 (R32). -/
abbrev low32 (v : Word64) : Word32 := v.setWidth 32

/-- A 32-bit result with zero in bits 63:32 (R32, R206). -/
abbrev zext32 (v : Word32) : Word64 := v.setWidth 64

/-- A 32-bit immediate sign-extended to 64 bits (R8, R110). -/
abbrev sext32 (v : Word32) : Word64 := v.signExtend 64

end Sys2Proof
end

