-- ==== Sys2Proof/Config.lean ====
section
/-! DEFINITION. What an implementation or platform of the BPF ISA fixes (R10): the launch parameters as plain data,
the functions a platform supplies, the slots of the program text, the event history of shared accesses, and the free
value that is the read oracle (the free values of helpers and packet loads stand beside the types they use, in
Machine/State.lean). -/

namespace Sys2Proof

/-- The host byte order, fixed for a run (R64). -/
inductive Endian where
  | little
  | big
deriving DecidableEq, Repr

/-- The conformance groups (R6). -/
inductive Group where
  | base32
  | base64
  | atomic32
  | atomic64
  | divmul32
  | divmul64
  | packet
deriving DecidableEq, Repr

/-- What a program-local call saves and changes (R386). -/
inductive CallConv where
  | pcOnly
  | linuxAbi
deriving DecidableEq, Repr

/-- One admitted memory region (R68). Its initial bytes are in the state's memory. -/
structure Region where
  base : Nat
  length : Nat
  readable : Bool
  writable : Bool
  shared : Bool
deriving DecidableEq, Repr

/-- The results of the one overflowing signed division, MIN s/ -1 and MIN s% -1, at both widths (R203). -/
structure SdivOverflow where
  quot32 : Word32
  rem32 : Word32
  quot64 : Word64
  rem64 : Word64
deriving DecidableEq, Repr

/-- The parameters of R10 that are fixed for a run, other than the program, `Helper`, `PacketLoad` and the oracle. The
five platform functions (R478) are finite tables; a key that is not listed is undefined (log 13). -/
structure Params where
  endian : Endian
  groups : List Group
  regions : List Region
  strictAlign : Bool
  localCallConv : CallConv
  frameStride : Nat
  maxCallDepth : Option Nat
  r10ReadOnly : Bool
  sdivOverflow : SdivOverflow
  mapByFd : List (Word32 × Word64)
  mapByIdx : List (Word32 × Word64)
  mapVal : List (Word64 × Word64)
  varAddr : List (Word32 × Word64)
  codeAddr : List ((Int × Word32) × Word64)
deriving DecidableEq, Repr

/-- The defaults of R10. The spec leaves `HostEndian` and `Regions` open: little, and one private region over the whole
address space, are the model's (DESIGN CHOICE, log 3). -/
def Params.default : Params where
  endian := .little
  groups := [.base32, .base64, .atomic32, .atomic64, .divmul32, .divmul64]
  regions := [{ base := 0, length := 2 ^ 64, readable := true, writable := true, shared := false }]
  strictAlign := true
  localCallConv := .pcOnly
  frameStride := 512
  maxCallDepth := none
  r10ReadOnly := true
  sdivOverflow := { quot32 := 0x80000000, rem32 := 0, quot64 := 0x8000000000000000, rem64 := 0 }
  mapByFd := []
  mapByIdx := []
  mapVal := []
  varAddr := []
  codeAddr := []

/-- A function that the platform supplies, as plain data: at the listed arguments the listed answers, the first one of an
argument counting; at every other argument one answer or, for none, a free value (log 9, 11). -/
structure PlatformFn (α β : Type) where
  listed : List (α × β)
  otherwise : Option β
deriving DecidableEq, Repr

/-- One instruction slot: 8 consecutive bytes in program order (R101). -/
structure Slot where
  b0 : Byte
  b1 : Byte
  b2 : Byte
  b3 : Byte
  b4 : Byte
  b5 : Byte
  b6 : Byte
  b7 : Byte
deriving DecidableEq, Repr

/-- One entry of the event history: a read, a write or an atomic operation that the agent performed on a shared region
(R72). Values are zero-extended to 64 bits; an atomic operation that stored nothing has `stored = none` (R75). -/
inductive Event where
  | read (addr : Word64) (n : Nat) (value : Word64)
  | write (addr : Word64) (n : Nat) (value : Word64)
  | atomic (addr : Word64) (n : Nat) (old : Word64) (stored : Option Word64)
deriving DecidableEq, Repr

/-- FREE VALUE: the byte that the environment lets a read of a shared region see, given the event history (newest
first) and the byte's address (R72, log 7). It has no body: nothing constrains it. -/
opaque Config.readOracle (history : List Event) (addr : Nat) : Byte

end Sys2Proof
end

