-- ==== Sys2Proof/Machine/Arith.lean ====
section
/-! DEFINITION. The arithmetic of classes ALU and ALU64 at either width (R201 to R205), and the byte-order functions of
R7. Addition, subtraction, multiplication, negation and the bitwise operations are those of `BitVec`, modulo 2^N. -/

namespace Sys2Proof.Machine

/-- Unsigned quotient; 0 for a zero divisor (R202). -/
def divU {n : Nat} (a b : BitVec n) : BitVec n := if b = 0 then 0 else BitVec.ofNat n (a.toNat / b.toNat)

/-- Unsigned remainder; the dividend for a zero divisor (R202). -/
def modU {n : Nat} (a b : BitVec n) : BitVec n := if b = 0 then a else BitVec.ofNat n (a.toNat % b.toNat)

/-- The one overflowing signed division: MIN by -1 (R203). -/
def sdivOverflows {n : Nat} (a b : BitVec n) : Bool := a == BitVec.intMin n && b == BitVec.allOnes n

/-- Signed quotient, truncated toward zero; 0 for a zero divisor; `ov` for MIN by -1 (R202, R203). -/
def divS {n : Nat} (ov a b : BitVec n) : BitVec n :=
  if b = 0 then 0 else if sdivOverflows a b then ov else BitVec.ofInt n (a.toInt.tdiv b.toInt)

/-- Signed remainder of truncated division; the dividend for a zero divisor; `ov` for MIN by -1 (R202, R203). -/
def modS {n : Nat} (ov a b : BitVec n) : BitVec n :=
  if b = 0 then a else if sdivOverflows a b then ov else BitVec.ofInt n (a.toInt.tmod b.toInt)

/-- The shift amount of class ALU: masked by 0x1F (R205). -/
def shift32 (b : Word32) : Nat := (b &&& 0x1F).toNat

/-- The shift amount of class ALU64: masked by 0x3F (R205). -/
def shift64 (b : Word64) : Nat := (b &&& 0x3F).toNat

/-- `bswap16`: the two bytes reversed (R7). -/
def bswap16 (v : BitVec 16) : BitVec 16 := v.extractLsb' 0 8 ++ v.extractLsb' 8 8

/-- `bswap32`: the four bytes reversed (R7). -/
def bswap32 (v : BitVec 32) : BitVec 32 := bswap16 (v.extractLsb' 0 16) ++ bswap16 (v.extractLsb' 16 16)

/-- `bswap64`: the eight bytes reversed (R7). -/
def bswap64 (v : BitVec 64) : BitVec 64 := bswap32 (v.extractLsb' 0 32) ++ bswap32 (v.extractLsb' 32 32)

/-- `leN`: conversion between host order and little endian (R7), given the reversal of the width. -/
def toLittle {n : Nat} (e : Endian) (rev : BitVec n → BitVec n) (v : BitVec n) : BitVec n :=
  match e with
  | .little => v
  | .big => rev v

/-- `beN`: conversion between host order and big endian (R7), given the reversal of the width. -/
def toBig {n : Nat} (e : Endian) (rev : BitVec n → BitVec n) (v : BitVec n) : BitVec n :=
  match e with
  | .little => rev v
  | .big => v

end Sys2Proof.Machine
end

