-- ==== Sys2Proof/Syntax.lean ====
section
/-! DEFINITION. The instructions of the BPF ISA: one constructor per row of spec/opcode_table.json, in the table's
order, each with the operands its rule names: `d` = `dst_reg`, `src` = `src_reg`, `off` = `offset`, `imm`, `next` =
`next_imm`. A field that a row fixes (R113) is no operand. The operand order is that of R125. -/

namespace Sys2Proof

/-- One BPF instruction. Each docstring gives the row's mnemonic and the rule of its meaning. -/
inductive Instr where
  /-- `ADD32_K` (40_alu32 R210) -/
  | add32K (d : Reg) (imm : Word32)
  /-- `ADD32_X` (40_alu32 R211) -/
  | add32X (d src : Reg)
  /-- `SUB32_K` (40_alu32 R212) -/
  | sub32K (d : Reg) (imm : Word32)
  /-- `SUB32_X` (40_alu32 R213) -/
  | sub32X (d src : Reg)
  /-- `MUL32_K` (40_alu32 R214) -/
  | mul32K (d : Reg) (imm : Word32)
  /-- `MUL32_X` (40_alu32 R215) -/
  | mul32X (d src : Reg)
  /-- `DIV32_K` (40_alu32 R216) -/
  | div32K (d : Reg) (imm : Word32)
  /-- `DIV32_X` (40_alu32 R217) -/
  | div32X (d src : Reg)
  /-- `SDIV32_K` (40_alu32 R218) -/
  | sdiv32K (d : Reg) (imm : Word32)
  /-- `SDIV32_X` (40_alu32 R219) -/
  | sdiv32X (d src : Reg)
  /-- `OR32_K` (40_alu32 R220) -/
  | or32K (d : Reg) (imm : Word32)
  /-- `OR32_X` (40_alu32 R221) -/
  | or32X (d src : Reg)
  /-- `AND32_K` (40_alu32 R222) -/
  | and32K (d : Reg) (imm : Word32)
  /-- `AND32_X` (40_alu32 R223) -/
  | and32X (d src : Reg)
  /-- `LSH32_K` (40_alu32 R224) -/
  | lsh32K (d : Reg) (imm : Word32)
  /-- `LSH32_X` (40_alu32 R225) -/
  | lsh32X (d src : Reg)
  /-- `RSH32_K` (40_alu32 R226) -/
  | rsh32K (d : Reg) (imm : Word32)
  /-- `RSH32_X` (40_alu32 R227) -/
  | rsh32X (d src : Reg)
  /-- `NEG32` (40_alu32 R228) -/
  | neg32 (d : Reg)
  /-- `MOD32_K` (40_alu32 R229) -/
  | mod32K (d : Reg) (imm : Word32)
  /-- `MOD32_X` (40_alu32 R230) -/
  | mod32X (d src : Reg)
  /-- `SMOD32_K` (40_alu32 R231) -/
  | smod32K (d : Reg) (imm : Word32)
  /-- `SMOD32_X` (40_alu32 R232) -/
  | smod32X (d src : Reg)
  /-- `XOR32_K` (40_alu32 R233) -/
  | xor32K (d : Reg) (imm : Word32)
  /-- `XOR32_X` (40_alu32 R234) -/
  | xor32X (d src : Reg)
  /-- `MOV32_K` (40_alu32 R235) -/
  | mov32K (d : Reg) (imm : Word32)
  /-- `MOV32_X` (40_alu32 R236) -/
  | mov32X (d src : Reg)
  /-- `MOVSX32_8` (40_alu32 R237) -/
  | movsx32From8 (d src : Reg)
  /-- `MOVSX32_16` (40_alu32 R238) -/
  | movsx32From16 (d src : Reg)
  /-- `ARSH32_K` (40_alu32 R239) -/
  | arsh32K (d : Reg) (imm : Word32)
  /-- `ARSH32_X` (40_alu32 R240) -/
  | arsh32X (d src : Reg)
  /-- `ADD64_K` (41_alu64 R251) -/
  | add64K (d : Reg) (imm : Word32)
  /-- `ADD64_X` (41_alu64 R252) -/
  | add64X (d src : Reg)
  /-- `SUB64_K` (41_alu64 R253) -/
  | sub64K (d : Reg) (imm : Word32)
  /-- `SUB64_X` (41_alu64 R254) -/
  | sub64X (d src : Reg)
  /-- `MUL64_K` (41_alu64 R255) -/
  | mul64K (d : Reg) (imm : Word32)
  /-- `MUL64_X` (41_alu64 R256) -/
  | mul64X (d src : Reg)
  /-- `DIV64_K` (41_alu64 R257) -/
  | div64K (d : Reg) (imm : Word32)
  /-- `DIV64_X` (41_alu64 R258) -/
  | div64X (d src : Reg)
  /-- `SDIV64_K` (41_alu64 R259) -/
  | sdiv64K (d : Reg) (imm : Word32)
  /-- `SDIV64_X` (41_alu64 R260) -/
  | sdiv64X (d src : Reg)
  /-- `OR64_K` (41_alu64 R261) -/
  | or64K (d : Reg) (imm : Word32)
  /-- `OR64_X` (41_alu64 R262) -/
  | or64X (d src : Reg)
  /-- `AND64_K` (41_alu64 R263) -/
  | and64K (d : Reg) (imm : Word32)
  /-- `AND64_X` (41_alu64 R264) -/
  | and64X (d src : Reg)
  /-- `LSH64_K` (41_alu64 R265) -/
  | lsh64K (d : Reg) (imm : Word32)
  /-- `LSH64_X` (41_alu64 R266) -/
  | lsh64X (d src : Reg)
  /-- `RSH64_K` (41_alu64 R267) -/
  | rsh64K (d : Reg) (imm : Word32)
  /-- `RSH64_X` (41_alu64 R268) -/
  | rsh64X (d src : Reg)
  /-- `NEG64` (41_alu64 R269) -/
  | neg64 (d : Reg)
  /-- `MOD64_K` (41_alu64 R270) -/
  | mod64K (d : Reg) (imm : Word32)
  /-- `MOD64_X` (41_alu64 R271) -/
  | mod64X (d src : Reg)
  /-- `SMOD64_K` (41_alu64 R272) -/
  | smod64K (d : Reg) (imm : Word32)
  /-- `SMOD64_X` (41_alu64 R273) -/
  | smod64X (d src : Reg)
  /-- `XOR64_K` (41_alu64 R274) -/
  | xor64K (d : Reg) (imm : Word32)
  /-- `XOR64_X` (41_alu64 R275) -/
  | xor64X (d src : Reg)
  /-- `MOV64_K` (41_alu64 R276) -/
  | mov64K (d : Reg) (imm : Word32)
  /-- `MOV64_X` (41_alu64 R277) -/
  | mov64X (d src : Reg)
  /-- `MOVSX64_8` (41_alu64 R278) -/
  | movsx64From8 (d src : Reg)
  /-- `MOVSX64_16` (41_alu64 R279) -/
  | movsx64From16 (d src : Reg)
  /-- `MOVSX64_32` (41_alu64 R280) -/
  | movsx64From32 (d src : Reg)
  /-- `ARSH64_K` (41_alu64 R281) -/
  | arsh64K (d : Reg) (imm : Word32)
  /-- `ARSH64_X` (41_alu64 R282) -/
  | arsh64X (d src : Reg)
  /-- `LE16` (42_byteswap R301) -/
  | le16 (d : Reg)
  /-- `LE32` (42_byteswap R302) -/
  | le32 (d : Reg)
  /-- `LE64` (42_byteswap R303) -/
  | le64 (d : Reg)
  /-- `BE16` (42_byteswap R304) -/
  | be16 (d : Reg)
  /-- `BE32` (42_byteswap R305) -/
  | be32 (d : Reg)
  /-- `BE64` (42_byteswap R306) -/
  | be64 (d : Reg)
  /-- `BSWAP16` (42_byteswap R307) -/
  | bswap16 (d : Reg)
  /-- `BSWAP32` (42_byteswap R308) -/
  | bswap32 (d : Reg)
  /-- `BSWAP64` (42_byteswap R309) -/
  | bswap64 (d : Reg)
  /-- `JA` (43_jump R324) -/
  | ja (off : Off)
  /-- `JA32` (43_jump R325) -/
  | ja32 (imm : Word32)
  /-- `JEQ_K` (43_jump R326) -/
  | jeqK (d : Reg) (imm : Word32) (off : Off)
  /-- `JEQ_X` (43_jump R327) -/
  | jeqX (d src : Reg) (off : Off)
  /-- `JGT_K` (43_jump R328) -/
  | jgtK (d : Reg) (imm : Word32) (off : Off)
  /-- `JGT_X` (43_jump R329) -/
  | jgtX (d src : Reg) (off : Off)
  /-- `JGE_K` (43_jump R330) -/
  | jgeK (d : Reg) (imm : Word32) (off : Off)
  /-- `JGE_X` (43_jump R331) -/
  | jgeX (d src : Reg) (off : Off)
  /-- `JSET_K` (43_jump R332) -/
  | jsetK (d : Reg) (imm : Word32) (off : Off)
  /-- `JSET_X` (43_jump R333) -/
  | jsetX (d src : Reg) (off : Off)
  /-- `JNE_K` (43_jump R334) -/
  | jneK (d : Reg) (imm : Word32) (off : Off)
  /-- `JNE_X` (43_jump R335) -/
  | jneX (d src : Reg) (off : Off)
  /-- `JSGT_K` (43_jump R336) -/
  | jsgtK (d : Reg) (imm : Word32) (off : Off)
  /-- `JSGT_X` (43_jump R337) -/
  | jsgtX (d src : Reg) (off : Off)
  /-- `JSGE_K` (43_jump R338) -/
  | jsgeK (d : Reg) (imm : Word32) (off : Off)
  /-- `JSGE_X` (43_jump R339) -/
  | jsgeX (d src : Reg) (off : Off)
  /-- `JLT_K` (43_jump R340) -/
  | jltK (d : Reg) (imm : Word32) (off : Off)
  /-- `JLT_X` (43_jump R341) -/
  | jltX (d src : Reg) (off : Off)
  /-- `JLE_K` (43_jump R342) -/
  | jleK (d : Reg) (imm : Word32) (off : Off)
  /-- `JLE_X` (43_jump R343) -/
  | jleX (d src : Reg) (off : Off)
  /-- `JSLT_K` (43_jump R344) -/
  | jsltK (d : Reg) (imm : Word32) (off : Off)
  /-- `JSLT_X` (43_jump R345) -/
  | jsltX (d src : Reg) (off : Off)
  /-- `JSLE_K` (43_jump R346) -/
  | jsleK (d : Reg) (imm : Word32) (off : Off)
  /-- `JSLE_X` (43_jump R347) -/
  | jsleX (d src : Reg) (off : Off)
  /-- `JEQ32_K` (43_jump32 R348) -/
  | jeq32K (d : Reg) (imm : Word32) (off : Off)
  /-- `JEQ32_X` (43_jump32 R349) -/
  | jeq32X (d src : Reg) (off : Off)
  /-- `JGT32_K` (43_jump32 R350) -/
  | jgt32K (d : Reg) (imm : Word32) (off : Off)
  /-- `JGT32_X` (43_jump32 R351) -/
  | jgt32X (d src : Reg) (off : Off)
  /-- `JGE32_K` (43_jump32 R352) -/
  | jge32K (d : Reg) (imm : Word32) (off : Off)
  /-- `JGE32_X` (43_jump32 R353) -/
  | jge32X (d src : Reg) (off : Off)
  /-- `JSET32_K` (43_jump32 R354) -/
  | jset32K (d : Reg) (imm : Word32) (off : Off)
  /-- `JSET32_X` (43_jump32 R355) -/
  | jset32X (d src : Reg) (off : Off)
  /-- `JNE32_K` (43_jump32 R356) -/
  | jne32K (d : Reg) (imm : Word32) (off : Off)
  /-- `JNE32_X` (43_jump32 R357) -/
  | jne32X (d src : Reg) (off : Off)
  /-- `JSGT32_K` (43_jump32 R358) -/
  | jsgt32K (d : Reg) (imm : Word32) (off : Off)
  /-- `JSGT32_X` (43_jump32 R359) -/
  | jsgt32X (d src : Reg) (off : Off)
  /-- `JSGE32_K` (43_jump32 R360) -/
  | jsge32K (d : Reg) (imm : Word32) (off : Off)
  /-- `JSGE32_X` (43_jump32 R361) -/
  | jsge32X (d src : Reg) (off : Off)
  /-- `JLT32_K` (43_jump32 R362) -/
  | jlt32K (d : Reg) (imm : Word32) (off : Off)
  /-- `JLT32_X` (43_jump32 R363) -/
  | jlt32X (d src : Reg) (off : Off)
  /-- `JLE32_K` (43_jump32 R364) -/
  | jle32K (d : Reg) (imm : Word32) (off : Off)
  /-- `JLE32_X` (43_jump32 R365) -/
  | jle32X (d src : Reg) (off : Off)
  /-- `JSLT32_K` (43_jump32 R366) -/
  | jslt32K (d : Reg) (imm : Word32) (off : Off)
  /-- `JSLT32_X` (43_jump32 R367) -/
  | jslt32X (d src : Reg) (off : Off)
  /-- `JSLE32_K` (43_jump32 R368) -/
  | jsle32K (d : Reg) (imm : Word32) (off : Off)
  /-- `JSLE32_X` (43_jump32 R369) -/
  | jsle32X (d src : Reg) (off : Off)
  /-- `CALL_HELPER` (44_call_exit R381) -/
  | callHelper (imm : Word32)
  /-- `CALL_LOCAL` (44_call_exit R382) -/
  | callLocal (imm : Word32)
  /-- `CALL_BTF` (44_call_exit R383) -/
  | callBtf (imm : Word32)
  /-- `EXIT` (44_call_exit R384) -/
  | exit
  /-- `LDXB` (45_load_store R402) -/
  | ldxb (d src : Reg) (off : Off)
  /-- `LDXH` (45_load_store R403) -/
  | ldxh (d src : Reg) (off : Off)
  /-- `LDXW` (45_load_store R404) -/
  | ldxw (d src : Reg) (off : Off)
  /-- `LDXDW` (45_load_store R405) -/
  | ldxdw (d src : Reg) (off : Off)
  /-- `LDXSB` (45_load_store R406) -/
  | ldxsb (d src : Reg) (off : Off)
  /-- `LDXSH` (45_load_store R407) -/
  | ldxsh (d src : Reg) (off : Off)
  /-- `LDXSW` (45_load_store R408) -/
  | ldxsw (d src : Reg) (off : Off)
  /-- `STB` (45_load_store R409) -/
  | stb (d : Reg) (off : Off) (imm : Word32)
  /-- `STH` (45_load_store R410) -/
  | sth (d : Reg) (off : Off) (imm : Word32)
  /-- `STW` (45_load_store R411) -/
  | stw (d : Reg) (off : Off) (imm : Word32)
  /-- `STDW` (45_load_store R412) -/
  | stdw (d : Reg) (off : Off) (imm : Word32)
  /-- `STXB` (45_load_store R413) -/
  | stxb (d src : Reg) (off : Off)
  /-- `STXH` (45_load_store R414) -/
  | stxh (d src : Reg) (off : Off)
  /-- `STXW` (45_load_store R415) -/
  | stxw (d src : Reg) (off : Off)
  /-- `STXDW` (45_load_store R416) -/
  | stxdw (d src : Reg) (off : Off)
  /-- `ATOMIC_ADD32` (46_atomic R432) -/
  | atomicAdd32 (d src : Reg) (off : Off)
  /-- `ATOMIC_FETCH_ADD32` (46_atomic R433) -/
  | atomicFetchAdd32 (d src : Reg) (off : Off)
  /-- `ATOMIC_OR32` (46_atomic R434) -/
  | atomicOr32 (d src : Reg) (off : Off)
  /-- `ATOMIC_FETCH_OR32` (46_atomic R435) -/
  | atomicFetchOr32 (d src : Reg) (off : Off)
  /-- `ATOMIC_AND32` (46_atomic R436) -/
  | atomicAnd32 (d src : Reg) (off : Off)
  /-- `ATOMIC_FETCH_AND32` (46_atomic R437) -/
  | atomicFetchAnd32 (d src : Reg) (off : Off)
  /-- `ATOMIC_XOR32` (46_atomic R438) -/
  | atomicXor32 (d src : Reg) (off : Off)
  /-- `ATOMIC_FETCH_XOR32` (46_atomic R439) -/
  | atomicFetchXor32 (d src : Reg) (off : Off)
  /-- `ATOMIC_XCHG32` (46_atomic R440) -/
  | atomicXchg32 (d src : Reg) (off : Off)
  /-- `ATOMIC_CMPXCHG32` (46_atomic R441) -/
  | atomicCmpxchg32 (d src : Reg) (off : Off)
  /-- `ATOMIC_ADD64` (46_atomic R442) -/
  | atomicAdd64 (d src : Reg) (off : Off)
  /-- `ATOMIC_FETCH_ADD64` (46_atomic R443) -/
  | atomicFetchAdd64 (d src : Reg) (off : Off)
  /-- `ATOMIC_OR64` (46_atomic R444) -/
  | atomicOr64 (d src : Reg) (off : Off)
  /-- `ATOMIC_FETCH_OR64` (46_atomic R445) -/
  | atomicFetchOr64 (d src : Reg) (off : Off)
  /-- `ATOMIC_AND64` (46_atomic R446) -/
  | atomicAnd64 (d src : Reg) (off : Off)
  /-- `ATOMIC_FETCH_AND64` (46_atomic R447) -/
  | atomicFetchAnd64 (d src : Reg) (off : Off)
  /-- `ATOMIC_XOR64` (46_atomic R448) -/
  | atomicXor64 (d src : Reg) (off : Off)
  /-- `ATOMIC_FETCH_XOR64` (46_atomic R449) -/
  | atomicFetchXor64 (d src : Reg) (off : Off)
  /-- `ATOMIC_XCHG64` (46_atomic R450) -/
  | atomicXchg64 (d src : Reg) (off : Off)
  /-- `ATOMIC_CMPXCHG64` (46_atomic R451) -/
  | atomicCmpxchg64 (d src : Reg) (off : Off)
  /-- `LDDW` (47_imm64 R471) -/
  | lddw (d : Reg) (imm next : Word32)
  /-- `LD_MAP_FD` (47_imm64 R472) -/
  | ldMapFd (d : Reg) (imm : Word32)
  /-- `LD_MAP_VAL_FD` (47_imm64 R473) -/
  | ldMapValFd (d : Reg) (imm next : Word32)
  /-- `LD_VAR_ADDR` (47_imm64 R474) -/
  | ldVarAddr (d : Reg) (imm : Word32)
  /-- `LD_CODE_ADDR` (47_imm64 R475) -/
  | ldCodeAddr (d : Reg) (imm : Word32)
  /-- `LD_MAP_IDX` (47_imm64 R476) -/
  | ldMapIdx (d : Reg) (imm : Word32)
  /-- `LD_MAP_VAL_IDX` (47_imm64 R477) -/
  | ldMapValIdx (d : Reg) (imm next : Word32)
  /-- `LDABSW` (48_packet R491) -/
  | ldabsw (imm : Word32)
  /-- `LDABSH` (48_packet R492) -/
  | ldabsh (imm : Word32)
  /-- `LDABSB` (48_packet R493) -/
  | ldabsb (imm : Word32)
  /-- `LDINDW` (48_packet R494) -/
  | ldindw (src : Reg) (imm : Word32)
  /-- `LDINDH` (48_packet R495) -/
  | ldindh (src : Reg) (imm : Word32)
  /-- `LDINDB` (48_packet R496) -/
  | ldindb (src : Reg) (imm : Word32)
deriving DecidableEq, Repr

end Sys2Proof
end

