-- ==== Sys2Proof/Decode.lean ====
section
/-! DEFINITION. The encoding of instructions: slots, fields and canonical words (R100 to R104), the decoder from the
class, code, source, mode and size parts of the opcode (R102 to R118), total and rejecting by name, the encoder from
the same tables, and what decoding checks about an instruction: its conformance group and the register it writes. -/

namespace Sys2Proof

/-- The five fields of a basic instruction (R100). -/
structure Fields where
  opcode : BitVec 8
  dst : BitVec 4
  src : BitVec 4
  offset : BitVec 16
  imm : BitVec 32
deriving DecidableEq, Repr

/-- The fields that a slot's bytes hold on a host of the given byte order (R101). -/
def Slot.fields (e : Endian) (s : Slot) : Fields :=
  match e with
  | .little =>
    { opcode := s.b0, dst := s.b1.extractLsb' 0 4, src := s.b1.extractLsb' 4 4
      offset := s.b3 ++ s.b2, imm := s.b7 ++ s.b6 ++ s.b5 ++ s.b4 }
  | .big =>
    { opcode := s.b0, dst := s.b1.extractLsb' 4 4, src := s.b1.extractLsb' 0 4
      offset := s.b2 ++ s.b3, imm := s.b4 ++ s.b5 ++ s.b6 ++ s.b7 }

/-- The bytes of a slot with the given fields (R101). -/
def Fields.slot (e : Endian) (f : Fields) : Slot :=
  let o0 := f.offset.extractLsb' 0 8
  let o1 := f.offset.extractLsb' 8 8
  let i0 := f.imm.extractLsb' 0 8
  let i1 := f.imm.extractLsb' 8 8
  let i2 := f.imm.extractLsb' 16 8
  let i3 := f.imm.extractLsb' 24 8
  match e with
  | .little => ⟨f.opcode, f.src ++ f.dst, o0, o1, i0, i1, i2, i3⟩
  | .big => ⟨f.opcode, f.dst ++ f.src, o1, o0, i3, i2, i1, i0⟩

/-- The canonical word W of R101: opcode in bits 7:0, dst_reg 11:8, src_reg 15:12, offset 31:16, imm 63:32. -/
def Fields.word (f : Fields) : BitVec 64 := f.imm ++ f.offset ++ f.src ++ f.dst ++ f.opcode

/-- The fields of a canonical word (R101). -/
def Fields.ofWord (w : BitVec 64) : Fields where
  opcode := w.extractLsb' 0 8
  dst := w.extractLsb' 8 4
  src := w.extractLsb' 12 4
  offset := w.extractLsb' 16 16
  imm := w.extractLsb' 32 32

/-- `class = opcode[2:0]` (R102). -/
def Fields.cls (f : Fields) : BitVec 3 := f.opcode.extractLsb' 0 3
/-- `code = opcode[7:4]` of the arithmetic and jump classes (R105). -/
def Fields.code (f : Fields) : BitVec 4 := f.opcode.extractLsb' 4 4
/-- The source bit `s = opcode[3]` of the arithmetic and jump classes (R105): 0 is K, 1 is X (R106). -/
def Fields.source (f : Fields) : BitVec 1 := f.opcode.extractLsb' 3 1
/-- `mode = opcode[7:5]` of the load and store classes (R107). -/
def Fields.mode (f : Fields) : BitVec 3 := f.opcode.extractLsb' 5 3
/-- `sz = opcode[4:3]` of the load and store classes (R107): 0 is W, 1 is H, 2 is B, 3 is DW (R109). -/
def Fields.size (f : Fields) : BitVec 2 := f.opcode.extractLsb' 3 2

/-- Why a word is no instruction (R120): each case is an illegal instruction, safe (R121). -/
inductive Reject where
  /-- The opcode byte has no row (R120 item 1, R127). -/
  | noSuchOpcode
  /-- The opcode has rows, but none with this `offset`, `imm` or `src_reg` selector (R120 item 2). -/
  | badSelector
  /-- A field that the instruction does not use is not zero (R113). -/
  | unusedField
  /-- A field used as a register number is above 10 (R112). -/
  | badRegister
  /-- There is no slot to decode, or a wide instruction's second slot is missing (R114). -/
  | truncated
  /-- The low 32 bits of a wide instruction's second slot are not zero (R104). -/
  | badSecondSlot
  /-- `next_imm` is not zero where the subtype does not use it (R470). -/
  | unusedNextImm
deriving DecidableEq, Repr

/-- A field used as a register number (R112). -/
def asReg (b : BitVec 4) : Except Reject Reg :=
  if h : b.toNat < 11 then .ok ⟨b.toNat, h⟩ else .error .badRegister

/-- The 4-bit field of a register. -/
def regBits (r : Reg) : BitVec 4 := BitVec.ofNat 4 r.val

/-- A field that the instruction does not use must be zero (R113). -/
def unused {n : Nat} (v : BitVec n) : Except Reject Unit :=
  if v = 0 then .ok () else .error .unusedField

/-- The row whose selector field has the value `key` (R111, R431, R470). -/
def selectRow {n : Nat} {α : Type} (key : BitVec n) : List (BitVec n × α) → Except Reject α
  | [] => .error .badSelector
  | (k, a) :: rest => if key = k then .ok a else selectRow key rest

/-! The field uses of the rows: each reads the operands and checks the unused fields (R110 to R113). -/

/-- ALU and ALU64 with K: `offset` selects, `src_reg` is zero (R208). -/
def readAluK (rows : List (BitVec 16 × (Reg → Word32 → Instr))) (f : Fields) : Except Reject Instr := do
  let mk ← selectRow f.offset rows
  unused f.src
  return mk (← asReg f.dst) f.imm

/-- ALU and ALU64 with X: `offset` selects, `imm` is zero (R208). -/
def readAluX (rows : List (BitVec 16 × (Reg → Reg → Instr))) (f : Fields) : Except Reject Instr := do
  let mk ← selectRow f.offset rows
  unused f.imm
  return mk (← asReg f.dst) (← asReg f.src)

/-- NEG: only `dst_reg` is used (R208). -/
def readUnary (mk : Reg → Instr) (f : Fields) : Except Reject Instr := do
  unused f.src
  unused f.offset
  unused f.imm
  return mk (← asReg f.dst)

/-- Byte swaps: `imm` is the width (R300). -/
def readSwap (rows : List (BitVec 32 × (Reg → Instr))) (f : Fields) : Except Reject Instr := do
  let mk ← selectRow f.imm rows
  unused f.src
  unused f.offset
  return mk (← asReg f.dst)

/-- JA: only `offset` is used (R324). -/
def readJumpOff (mk : Off → Instr) (f : Fields) : Except Reject Instr := do
  unused f.dst
  unused f.src
  unused f.imm
  return mk f.offset

/-- JA32: only `imm` is used (R325). -/
def readJumpImm (mk : Word32 → Instr) (f : Fields) : Except Reject Instr := do
  unused f.dst
  unused f.src
  unused f.offset
  return mk f.imm

/-- Conditional jumps with K: `src_reg` is zero (R321). -/
def readJumpK (mk : Reg → Word32 → Off → Instr) (f : Fields) : Except Reject Instr := do
  unused f.src
  return mk (← asReg f.dst) f.imm f.offset

/-- Conditional jumps with X: `imm` is zero (R321). -/
def readJumpX (mk : Reg → Reg → Off → Instr) (f : Fields) : Except Reject Instr := do
  unused f.imm
  return mk (← asReg f.dst) (← asReg f.src) f.offset

/-- CALL: `src_reg` selects the kind, `dst_reg` and `offset` are zero (R380). -/
def readCall (rows : List (BitVec 4 × (Word32 → Instr))) (f : Fields) : Except Reject Instr := do
  let mk ← selectRow f.src rows
  unused f.dst
  unused f.offset
  return mk f.imm

/-- EXIT: every other field is zero (R380). -/
def readBare (i : Instr) (f : Fields) : Except Reject Instr := do
  unused f.dst
  unused f.src
  unused f.offset
  unused f.imm
  return i

/-- LDX and STX with MEM or MEMSX: `imm` is zero (R400). -/
def readAccess (mk : Reg → Reg → Off → Instr) (f : Fields) : Except Reject Instr := do
  unused f.imm
  return mk (← asReg f.dst) (← asReg f.src) f.offset

/-- ST: `src_reg` is zero (R400). -/
def readStoreImm (mk : Reg → Off → Word32 → Instr) (f : Fields) : Except Reject Instr := do
  unused f.src
  return mk (← asReg f.dst) f.offset f.imm

/-- STX with ATOMIC: the whole `imm` selects the operation (R431). -/
def readAtomic (rows : List (BitVec 32 × (Reg → Reg → Off → Instr))) (f : Fields) : Except Reject Instr := do
  let mk ← selectRow f.imm rows
  return mk (← asReg f.dst) (← asReg f.src) f.offset

/-- First slot of a 64-bit immediate: `src_reg` is the subtype, `offset` is zero (R470). `next_imm` is filled in from
the second slot by `completeWide`. -/
def readImm64 (rows : List (BitVec 4 × (Reg → Word32 → Instr))) (f : Fields) : Except Reject Instr := do
  let mk ← selectRow f.src rows
  unused f.offset
  return mk (← asReg f.dst) f.imm

/-- LD with ABS: only `imm` is used (R490). -/
def readPacketAbs (mk : Word32 → Instr) (f : Fields) : Except Reject Instr := do
  unused f.dst
  unused f.src
  unused f.offset
  return mk f.imm

/-- LD with IND: `src_reg` and `imm` are used (R490). -/
def readPacketInd (mk : Reg → Word32 → Instr) (f : Fields) : Except Reject Instr := do
  unused f.dst
  unused f.offset
  return mk (← asReg f.src) f.imm

/-- Class LD (R118). -/
def decodeLd (f : Fields) : Except Reject Instr :=
  match f.mode, f.size with
  | 0#3, 3#2 =>
    readImm64 [(0x0, (fun d imm => .lddw d imm 0)), (0x1, .ldMapFd), (0x2, (fun d imm => .ldMapValFd d imm 0)),
      (0x3, .ldVarAddr), (0x4, .ldCodeAddr), (0x5, .ldMapIdx), (0x6, (fun d imm => .ldMapValIdx d imm 0))] f
  | 1#3, 0#2 => readPacketAbs .ldabsw f
  | 1#3, 1#2 => readPacketAbs .ldabsh f
  | 1#3, 2#2 => readPacketAbs .ldabsb f
  | 2#3, 0#2 => readPacketInd .ldindw f
  | 2#3, 1#2 => readPacketInd .ldindh f
  | 2#3, 2#2 => readPacketInd .ldindb f
  | _, _ => .error .noSuchOpcode

/-- Class LDX (R118). -/
def decodeLdx (f : Fields) : Except Reject Instr :=
  match f.mode, f.size with
  | 3#3, 0#2 => readAccess .ldxw f
  | 3#3, 1#2 => readAccess .ldxh f
  | 3#3, 2#2 => readAccess .ldxb f
  | 3#3, 3#2 => readAccess .ldxdw f
  | 4#3, 0#2 => readAccess .ldxsw f
  | 4#3, 1#2 => readAccess .ldxsh f
  | 4#3, 2#2 => readAccess .ldxsb f
  | _, _ => .error .noSuchOpcode

/-- Class ST (R118). -/
def decodeSt (f : Fields) : Except Reject Instr :=
  match f.mode, f.size with
  | 3#3, 0#2 => readStoreImm .stw f
  | 3#3, 1#2 => readStoreImm .sth f
  | 3#3, 2#2 => readStoreImm .stb f
  | 3#3, 3#2 => readStoreImm .stdw f
  | _, _ => .error .noSuchOpcode

/-- Class STX (R118); modes MEM and ATOMIC (R431). -/
def decodeStx (f : Fields) : Except Reject Instr :=
  match f.mode, f.size with
  | 3#3, 0#2 => readAccess .stxw f
  | 3#3, 1#2 => readAccess .stxh f
  | 3#3, 2#2 => readAccess .stxb f
  | 3#3, 3#2 => readAccess .stxdw f
  | 6#3, 0#2 =>
    readAtomic [(0x0, .atomicAdd32), (0x1, .atomicFetchAdd32), (0x40, .atomicOr32), (0x41, .atomicFetchOr32),
      (0x50, .atomicAnd32), (0x51, .atomicFetchAnd32), (0xa0, .atomicXor32), (0xa1, .atomicFetchXor32),
      (0xe1, .atomicXchg32), (0xf1, .atomicCmpxchg32)] f
  | 6#3, 3#2 =>
    readAtomic [(0x0, .atomicAdd64), (0x1, .atomicFetchAdd64), (0x40, .atomicOr64), (0x41, .atomicFetchOr64),
      (0x50, .atomicAnd64), (0x51, .atomicFetchAnd64), (0xa0, .atomicXor64), (0xa1, .atomicFetchXor64),
      (0xe1, .atomicXchg64), (0xf1, .atomicCmpxchg64)] f
  | _, _ => .error .noSuchOpcode

/-- Class ALU (R116). -/
def decodeAlu32 (f : Fields) : Except Reject Instr :=
  match f.code, f.source with
  | 0x0#4, 0#1 => readAluK [(0x0, .add32K)] f
  | 0x0#4, 1#1 => readAluX [(0x0, .add32X)] f
  | 0x1#4, 0#1 => readAluK [(0x0, .sub32K)] f
  | 0x1#4, 1#1 => readAluX [(0x0, .sub32X)] f
  | 0x2#4, 0#1 => readAluK [(0x0, .mul32K)] f
  | 0x2#4, 1#1 => readAluX [(0x0, .mul32X)] f
  | 0x3#4, 0#1 => readAluK [(0x0, .div32K), (0x1, .sdiv32K)] f
  | 0x3#4, 1#1 => readAluX [(0x0, .div32X), (0x1, .sdiv32X)] f
  | 0x4#4, 0#1 => readAluK [(0x0, .or32K)] f
  | 0x4#4, 1#1 => readAluX [(0x0, .or32X)] f
  | 0x5#4, 0#1 => readAluK [(0x0, .and32K)] f
  | 0x5#4, 1#1 => readAluX [(0x0, .and32X)] f
  | 0x6#4, 0#1 => readAluK [(0x0, .lsh32K)] f
  | 0x6#4, 1#1 => readAluX [(0x0, .lsh32X)] f
  | 0x7#4, 0#1 => readAluK [(0x0, .rsh32K)] f
  | 0x7#4, 1#1 => readAluX [(0x0, .rsh32X)] f
  | 0x8#4, 0#1 => readUnary .neg32 f
  | 0x9#4, 0#1 => readAluK [(0x0, .mod32K), (0x1, .smod32K)] f
  | 0x9#4, 1#1 => readAluX [(0x0, .mod32X), (0x1, .smod32X)] f
  | 0xa#4, 0#1 => readAluK [(0x0, .xor32K)] f
  | 0xa#4, 1#1 => readAluX [(0x0, .xor32X)] f
  | 0xb#4, 0#1 => readAluK [(0x0, .mov32K)] f
  | 0xb#4, 1#1 => readAluX [(0x0, .mov32X), (0x8, .movsx32From8), (0x10, .movsx32From16)] f
  | 0xc#4, 0#1 => readAluK [(0x0, .arsh32K)] f
  | 0xc#4, 1#1 => readAluX [(0x0, .arsh32X)] f
  | 0xd#4, 0#1 => readSwap [(0x10, .le16), (0x20, .le32), (0x40, .le64)] f
  | 0xd#4, 1#1 => readSwap [(0x10, .be16), (0x20, .be32), (0x40, .be64)] f
  | _, _ => .error .noSuchOpcode

/-- Class JMP (R117). -/
def decodeJmp (f : Fields) : Except Reject Instr :=
  match f.code, f.source with
  | 0x0#4, 0#1 => readJumpOff .ja f
  | 0x1#4, 0#1 => readJumpK .jeqK f
  | 0x1#4, 1#1 => readJumpX .jeqX f
  | 0x2#4, 0#1 => readJumpK .jgtK f
  | 0x2#4, 1#1 => readJumpX .jgtX f
  | 0x3#4, 0#1 => readJumpK .jgeK f
  | 0x3#4, 1#1 => readJumpX .jgeX f
  | 0x4#4, 0#1 => readJumpK .jsetK f
  | 0x4#4, 1#1 => readJumpX .jsetX f
  | 0x5#4, 0#1 => readJumpK .jneK f
  | 0x5#4, 1#1 => readJumpX .jneX f
  | 0x6#4, 0#1 => readJumpK .jsgtK f
  | 0x6#4, 1#1 => readJumpX .jsgtX f
  | 0x7#4, 0#1 => readJumpK .jsgeK f
  | 0x7#4, 1#1 => readJumpX .jsgeX f
  | 0x8#4, 0#1 => readCall [(0x0, .callHelper), (0x1, .callLocal), (0x2, .callBtf)] f
  | 0x9#4, 0#1 => readBare .exit f
  | 0xa#4, 0#1 => readJumpK .jltK f
  | 0xa#4, 1#1 => readJumpX .jltX f
  | 0xb#4, 0#1 => readJumpK .jleK f
  | 0xb#4, 1#1 => readJumpX .jleX f
  | 0xc#4, 0#1 => readJumpK .jsltK f
  | 0xc#4, 1#1 => readJumpX .jsltX f
  | 0xd#4, 0#1 => readJumpK .jsleK f
  | 0xd#4, 1#1 => readJumpX .jsleX f
  | _, _ => .error .noSuchOpcode

/-- Class JMP32 (R117). -/
def decodeJmp32 (f : Fields) : Except Reject Instr :=
  match f.code, f.source with
  | 0x0#4, 0#1 => readJumpImm .ja32 f
  | 0x1#4, 0#1 => readJumpK .jeq32K f
  | 0x1#4, 1#1 => readJumpX .jeq32X f
  | 0x2#4, 0#1 => readJumpK .jgt32K f
  | 0x2#4, 1#1 => readJumpX .jgt32X f
  | 0x3#4, 0#1 => readJumpK .jge32K f
  | 0x3#4, 1#1 => readJumpX .jge32X f
  | 0x4#4, 0#1 => readJumpK .jset32K f
  | 0x4#4, 1#1 => readJumpX .jset32X f
  | 0x5#4, 0#1 => readJumpK .jne32K f
  | 0x5#4, 1#1 => readJumpX .jne32X f
  | 0x6#4, 0#1 => readJumpK .jsgt32K f
  | 0x6#4, 1#1 => readJumpX .jsgt32X f
  | 0x7#4, 0#1 => readJumpK .jsge32K f
  | 0x7#4, 1#1 => readJumpX .jsge32X f
  | 0xa#4, 0#1 => readJumpK .jlt32K f
  | 0xa#4, 1#1 => readJumpX .jlt32X f
  | 0xb#4, 0#1 => readJumpK .jle32K f
  | 0xb#4, 1#1 => readJumpX .jle32X f
  | 0xc#4, 0#1 => readJumpK .jslt32K f
  | 0xc#4, 1#1 => readJumpX .jslt32X f
  | 0xd#4, 0#1 => readJumpK .jsle32K f
  | 0xd#4, 1#1 => readJumpX .jsle32X f
  | _, _ => .error .noSuchOpcode

/-- Class ALU64 (R116). -/
def decodeAlu64 (f : Fields) : Except Reject Instr :=
  match f.code, f.source with
  | 0x0#4, 0#1 => readAluK [(0x0, .add64K)] f
  | 0x0#4, 1#1 => readAluX [(0x0, .add64X)] f
  | 0x1#4, 0#1 => readAluK [(0x0, .sub64K)] f
  | 0x1#4, 1#1 => readAluX [(0x0, .sub64X)] f
  | 0x2#4, 0#1 => readAluK [(0x0, .mul64K)] f
  | 0x2#4, 1#1 => readAluX [(0x0, .mul64X)] f
  | 0x3#4, 0#1 => readAluK [(0x0, .div64K), (0x1, .sdiv64K)] f
  | 0x3#4, 1#1 => readAluX [(0x0, .div64X), (0x1, .sdiv64X)] f
  | 0x4#4, 0#1 => readAluK [(0x0, .or64K)] f
  | 0x4#4, 1#1 => readAluX [(0x0, .or64X)] f
  | 0x5#4, 0#1 => readAluK [(0x0, .and64K)] f
  | 0x5#4, 1#1 => readAluX [(0x0, .and64X)] f
  | 0x6#4, 0#1 => readAluK [(0x0, .lsh64K)] f
  | 0x6#4, 1#1 => readAluX [(0x0, .lsh64X)] f
  | 0x7#4, 0#1 => readAluK [(0x0, .rsh64K)] f
  | 0x7#4, 1#1 => readAluX [(0x0, .rsh64X)] f
  | 0x8#4, 0#1 => readUnary .neg64 f
  | 0x9#4, 0#1 => readAluK [(0x0, .mod64K), (0x1, .smod64K)] f
  | 0x9#4, 1#1 => readAluX [(0x0, .mod64X), (0x1, .smod64X)] f
  | 0xa#4, 0#1 => readAluK [(0x0, .xor64K)] f
  | 0xa#4, 1#1 => readAluX [(0x0, .xor64X)] f
  | 0xb#4, 0#1 => readAluK [(0x0, .mov64K)] f
  | 0xb#4, 1#1 => readAluX [(0x0, .mov64X), (0x8, .movsx64From8), (0x10, .movsx64From16), (0x20, .movsx64From32)] f
  | 0xc#4, 0#1 => readAluK [(0x0, .arsh64K)] f
  | 0xc#4, 1#1 => readAluX [(0x0, .arsh64X)] f
  | 0xd#4, 0#1 => readSwap [(0x10, .bswap16), (0x20, .bswap32), (0x40, .bswap64)] f
  | _, _ => .error .noSuchOpcode

/-- The instruction whose first slot has these fields (R103, R114); a wide one has `next_imm` 0 until its second slot
is read. -/
def decodeFields (f : Fields) : Except Reject Instr :=
  match f.cls with
  | 0#3 => decodeLd f
  | 1#3 => decodeLdx f
  | 2#3 => decodeSt f
  | 3#3 => decodeStx f
  | 4#3 => decodeAlu32 f
  | 5#3 => decodeJmp f
  | 6#3 => decodeJmp32 f
  | _ => decodeAlu64 f

/-- The fields of an instruction's first slot (R116 to R118, R431, R470). -/
def encodeFields (i : Instr) : Fields :=
  match i with
  | .add32K d imm => ⟨0x04, regBits d, 0, 0, imm⟩
  | .add32X d src => ⟨0x0c, regBits d, regBits src, 0, 0⟩
  | .sub32K d imm => ⟨0x14, regBits d, 0, 0, imm⟩
  | .sub32X d src => ⟨0x1c, regBits d, regBits src, 0, 0⟩
  | .mul32K d imm => ⟨0x24, regBits d, 0, 0, imm⟩
  | .mul32X d src => ⟨0x2c, regBits d, regBits src, 0, 0⟩
  | .div32K d imm => ⟨0x34, regBits d, 0, 0, imm⟩
  | .div32X d src => ⟨0x3c, regBits d, regBits src, 0, 0⟩
  | .sdiv32K d imm => ⟨0x34, regBits d, 0, 0x1, imm⟩
  | .sdiv32X d src => ⟨0x3c, regBits d, regBits src, 0x1, 0⟩
  | .or32K d imm => ⟨0x44, regBits d, 0, 0, imm⟩
  | .or32X d src => ⟨0x4c, regBits d, regBits src, 0, 0⟩
  | .and32K d imm => ⟨0x54, regBits d, 0, 0, imm⟩
  | .and32X d src => ⟨0x5c, regBits d, regBits src, 0, 0⟩
  | .lsh32K d imm => ⟨0x64, regBits d, 0, 0, imm⟩
  | .lsh32X d src => ⟨0x6c, regBits d, regBits src, 0, 0⟩
  | .rsh32K d imm => ⟨0x74, regBits d, 0, 0, imm⟩
  | .rsh32X d src => ⟨0x7c, regBits d, regBits src, 0, 0⟩
  | .neg32 d => ⟨0x84, regBits d, 0, 0, 0⟩
  | .mod32K d imm => ⟨0x94, regBits d, 0, 0, imm⟩
  | .mod32X d src => ⟨0x9c, regBits d, regBits src, 0, 0⟩
  | .smod32K d imm => ⟨0x94, regBits d, 0, 0x1, imm⟩
  | .smod32X d src => ⟨0x9c, regBits d, regBits src, 0x1, 0⟩
  | .xor32K d imm => ⟨0xa4, regBits d, 0, 0, imm⟩
  | .xor32X d src => ⟨0xac, regBits d, regBits src, 0, 0⟩
  | .mov32K d imm => ⟨0xb4, regBits d, 0, 0, imm⟩
  | .mov32X d src => ⟨0xbc, regBits d, regBits src, 0, 0⟩
  | .movsx32From8 d src => ⟨0xbc, regBits d, regBits src, 0x8, 0⟩
  | .movsx32From16 d src => ⟨0xbc, regBits d, regBits src, 0x10, 0⟩
  | .arsh32K d imm => ⟨0xc4, regBits d, 0, 0, imm⟩
  | .arsh32X d src => ⟨0xcc, regBits d, regBits src, 0, 0⟩
  | .add64K d imm => ⟨0x07, regBits d, 0, 0, imm⟩
  | .add64X d src => ⟨0x0f, regBits d, regBits src, 0, 0⟩
  | .sub64K d imm => ⟨0x17, regBits d, 0, 0, imm⟩
  | .sub64X d src => ⟨0x1f, regBits d, regBits src, 0, 0⟩
  | .mul64K d imm => ⟨0x27, regBits d, 0, 0, imm⟩
  | .mul64X d src => ⟨0x2f, regBits d, regBits src, 0, 0⟩
  | .div64K d imm => ⟨0x37, regBits d, 0, 0, imm⟩
  | .div64X d src => ⟨0x3f, regBits d, regBits src, 0, 0⟩
  | .sdiv64K d imm => ⟨0x37, regBits d, 0, 0x1, imm⟩
  | .sdiv64X d src => ⟨0x3f, regBits d, regBits src, 0x1, 0⟩
  | .or64K d imm => ⟨0x47, regBits d, 0, 0, imm⟩
  | .or64X d src => ⟨0x4f, regBits d, regBits src, 0, 0⟩
  | .and64K d imm => ⟨0x57, regBits d, 0, 0, imm⟩
  | .and64X d src => ⟨0x5f, regBits d, regBits src, 0, 0⟩
  | .lsh64K d imm => ⟨0x67, regBits d, 0, 0, imm⟩
  | .lsh64X d src => ⟨0x6f, regBits d, regBits src, 0, 0⟩
  | .rsh64K d imm => ⟨0x77, regBits d, 0, 0, imm⟩
  | .rsh64X d src => ⟨0x7f, regBits d, regBits src, 0, 0⟩
  | .neg64 d => ⟨0x87, regBits d, 0, 0, 0⟩
  | .mod64K d imm => ⟨0x97, regBits d, 0, 0, imm⟩
  | .mod64X d src => ⟨0x9f, regBits d, regBits src, 0, 0⟩
  | .smod64K d imm => ⟨0x97, regBits d, 0, 0x1, imm⟩
  | .smod64X d src => ⟨0x9f, regBits d, regBits src, 0x1, 0⟩
  | .xor64K d imm => ⟨0xa7, regBits d, 0, 0, imm⟩
  | .xor64X d src => ⟨0xaf, regBits d, regBits src, 0, 0⟩
  | .mov64K d imm => ⟨0xb7, regBits d, 0, 0, imm⟩
  | .mov64X d src => ⟨0xbf, regBits d, regBits src, 0, 0⟩
  | .movsx64From8 d src => ⟨0xbf, regBits d, regBits src, 0x8, 0⟩
  | .movsx64From16 d src => ⟨0xbf, regBits d, regBits src, 0x10, 0⟩
  | .movsx64From32 d src => ⟨0xbf, regBits d, regBits src, 0x20, 0⟩
  | .arsh64K d imm => ⟨0xc7, regBits d, 0, 0, imm⟩
  | .arsh64X d src => ⟨0xcf, regBits d, regBits src, 0, 0⟩
  | .le16 d => ⟨0xd4, regBits d, 0, 0, 0x10⟩
  | .le32 d => ⟨0xd4, regBits d, 0, 0, 0x20⟩
  | .le64 d => ⟨0xd4, regBits d, 0, 0, 0x40⟩
  | .be16 d => ⟨0xdc, regBits d, 0, 0, 0x10⟩
  | .be32 d => ⟨0xdc, regBits d, 0, 0, 0x20⟩
  | .be64 d => ⟨0xdc, regBits d, 0, 0, 0x40⟩
  | .bswap16 d => ⟨0xd7, regBits d, 0, 0, 0x10⟩
  | .bswap32 d => ⟨0xd7, regBits d, 0, 0, 0x20⟩
  | .bswap64 d => ⟨0xd7, regBits d, 0, 0, 0x40⟩
  | .ja off => ⟨0x05, 0, 0, off, 0⟩
  | .ja32 imm => ⟨0x06, 0, 0, 0, imm⟩
  | .jeqK d imm off => ⟨0x15, regBits d, 0, off, imm⟩
  | .jeqX d src off => ⟨0x1d, regBits d, regBits src, off, 0⟩
  | .jgtK d imm off => ⟨0x25, regBits d, 0, off, imm⟩
  | .jgtX d src off => ⟨0x2d, regBits d, regBits src, off, 0⟩
  | .jgeK d imm off => ⟨0x35, regBits d, 0, off, imm⟩
  | .jgeX d src off => ⟨0x3d, regBits d, regBits src, off, 0⟩
  | .jsetK d imm off => ⟨0x45, regBits d, 0, off, imm⟩
  | .jsetX d src off => ⟨0x4d, regBits d, regBits src, off, 0⟩
  | .jneK d imm off => ⟨0x55, regBits d, 0, off, imm⟩
  | .jneX d src off => ⟨0x5d, regBits d, regBits src, off, 0⟩
  | .jsgtK d imm off => ⟨0x65, regBits d, 0, off, imm⟩
  | .jsgtX d src off => ⟨0x6d, regBits d, regBits src, off, 0⟩
  | .jsgeK d imm off => ⟨0x75, regBits d, 0, off, imm⟩
  | .jsgeX d src off => ⟨0x7d, regBits d, regBits src, off, 0⟩
  | .jltK d imm off => ⟨0xa5, regBits d, 0, off, imm⟩
  | .jltX d src off => ⟨0xad, regBits d, regBits src, off, 0⟩
  | .jleK d imm off => ⟨0xb5, regBits d, 0, off, imm⟩
  | .jleX d src off => ⟨0xbd, regBits d, regBits src, off, 0⟩
  | .jsltK d imm off => ⟨0xc5, regBits d, 0, off, imm⟩
  | .jsltX d src off => ⟨0xcd, regBits d, regBits src, off, 0⟩
  | .jsleK d imm off => ⟨0xd5, regBits d, 0, off, imm⟩
  | .jsleX d src off => ⟨0xdd, regBits d, regBits src, off, 0⟩
  | .jeq32K d imm off => ⟨0x16, regBits d, 0, off, imm⟩
  | .jeq32X d src off => ⟨0x1e, regBits d, regBits src, off, 0⟩
  | .jgt32K d imm off => ⟨0x26, regBits d, 0, off, imm⟩
  | .jgt32X d src off => ⟨0x2e, regBits d, regBits src, off, 0⟩
  | .jge32K d imm off => ⟨0x36, regBits d, 0, off, imm⟩
  | .jge32X d src off => ⟨0x3e, regBits d, regBits src, off, 0⟩
  | .jset32K d imm off => ⟨0x46, regBits d, 0, off, imm⟩
  | .jset32X d src off => ⟨0x4e, regBits d, regBits src, off, 0⟩
  | .jne32K d imm off => ⟨0x56, regBits d, 0, off, imm⟩
  | .jne32X d src off => ⟨0x5e, regBits d, regBits src, off, 0⟩
  | .jsgt32K d imm off => ⟨0x66, regBits d, 0, off, imm⟩
  | .jsgt32X d src off => ⟨0x6e, regBits d, regBits src, off, 0⟩
  | .jsge32K d imm off => ⟨0x76, regBits d, 0, off, imm⟩
  | .jsge32X d src off => ⟨0x7e, regBits d, regBits src, off, 0⟩
  | .jlt32K d imm off => ⟨0xa6, regBits d, 0, off, imm⟩
  | .jlt32X d src off => ⟨0xae, regBits d, regBits src, off, 0⟩
  | .jle32K d imm off => ⟨0xb6, regBits d, 0, off, imm⟩
  | .jle32X d src off => ⟨0xbe, regBits d, regBits src, off, 0⟩
  | .jslt32K d imm off => ⟨0xc6, regBits d, 0, off, imm⟩
  | .jslt32X d src off => ⟨0xce, regBits d, regBits src, off, 0⟩
  | .jsle32K d imm off => ⟨0xd6, regBits d, 0, off, imm⟩
  | .jsle32X d src off => ⟨0xde, regBits d, regBits src, off, 0⟩
  | .callHelper imm => ⟨0x85, 0, 0, 0, imm⟩
  | .callLocal imm => ⟨0x85, 0, 0x1, 0, imm⟩
  | .callBtf imm => ⟨0x85, 0, 0x2, 0, imm⟩
  | .exit => ⟨0x95, 0, 0, 0, 0⟩
  | .ldxb d src off => ⟨0x71, regBits d, regBits src, off, 0⟩
  | .ldxh d src off => ⟨0x69, regBits d, regBits src, off, 0⟩
  | .ldxw d src off => ⟨0x61, regBits d, regBits src, off, 0⟩
  | .ldxdw d src off => ⟨0x79, regBits d, regBits src, off, 0⟩
  | .ldxsb d src off => ⟨0x91, regBits d, regBits src, off, 0⟩
  | .ldxsh d src off => ⟨0x89, regBits d, regBits src, off, 0⟩
  | .ldxsw d src off => ⟨0x81, regBits d, regBits src, off, 0⟩
  | .stb d off imm => ⟨0x72, regBits d, 0, off, imm⟩
  | .sth d off imm => ⟨0x6a, regBits d, 0, off, imm⟩
  | .stw d off imm => ⟨0x62, regBits d, 0, off, imm⟩
  | .stdw d off imm => ⟨0x7a, regBits d, 0, off, imm⟩
  | .stxb d src off => ⟨0x73, regBits d, regBits src, off, 0⟩
  | .stxh d src off => ⟨0x6b, regBits d, regBits src, off, 0⟩
  | .stxw d src off => ⟨0x63, regBits d, regBits src, off, 0⟩
  | .stxdw d src off => ⟨0x7b, regBits d, regBits src, off, 0⟩
  | .atomicAdd32 d src off => ⟨0xc3, regBits d, regBits src, off, 0⟩
  | .atomicFetchAdd32 d src off => ⟨0xc3, regBits d, regBits src, off, 0x1⟩
  | .atomicOr32 d src off => ⟨0xc3, regBits d, regBits src, off, 0x40⟩
  | .atomicFetchOr32 d src off => ⟨0xc3, regBits d, regBits src, off, 0x41⟩
  | .atomicAnd32 d src off => ⟨0xc3, regBits d, regBits src, off, 0x50⟩
  | .atomicFetchAnd32 d src off => ⟨0xc3, regBits d, regBits src, off, 0x51⟩
  | .atomicXor32 d src off => ⟨0xc3, regBits d, regBits src, off, 0xa0⟩
  | .atomicFetchXor32 d src off => ⟨0xc3, regBits d, regBits src, off, 0xa1⟩
  | .atomicXchg32 d src off => ⟨0xc3, regBits d, regBits src, off, 0xe1⟩
  | .atomicCmpxchg32 d src off => ⟨0xc3, regBits d, regBits src, off, 0xf1⟩
  | .atomicAdd64 d src off => ⟨0xdb, regBits d, regBits src, off, 0⟩
  | .atomicFetchAdd64 d src off => ⟨0xdb, regBits d, regBits src, off, 0x1⟩
  | .atomicOr64 d src off => ⟨0xdb, regBits d, regBits src, off, 0x40⟩
  | .atomicFetchOr64 d src off => ⟨0xdb, regBits d, regBits src, off, 0x41⟩
  | .atomicAnd64 d src off => ⟨0xdb, regBits d, regBits src, off, 0x50⟩
  | .atomicFetchAnd64 d src off => ⟨0xdb, regBits d, regBits src, off, 0x51⟩
  | .atomicXor64 d src off => ⟨0xdb, regBits d, regBits src, off, 0xa0⟩
  | .atomicFetchXor64 d src off => ⟨0xdb, regBits d, regBits src, off, 0xa1⟩
  | .atomicXchg64 d src off => ⟨0xdb, regBits d, regBits src, off, 0xe1⟩
  | .atomicCmpxchg64 d src off => ⟨0xdb, regBits d, regBits src, off, 0xf1⟩
  | .lddw d imm _ => ⟨0x18, regBits d, 0, 0, imm⟩
  | .ldMapFd d imm => ⟨0x18, regBits d, 0x1, 0, imm⟩
  | .ldMapValFd d imm _ => ⟨0x18, regBits d, 0x2, 0, imm⟩
  | .ldVarAddr d imm => ⟨0x18, regBits d, 0x3, 0, imm⟩
  | .ldCodeAddr d imm => ⟨0x18, regBits d, 0x4, 0, imm⟩
  | .ldMapIdx d imm => ⟨0x18, regBits d, 0x5, 0, imm⟩
  | .ldMapValIdx d imm _ => ⟨0x18, regBits d, 0x6, 0, imm⟩
  | .ldabsw imm => ⟨0x20, 0, 0, 0, imm⟩
  | .ldabsh imm => ⟨0x28, 0, 0, 0, imm⟩
  | .ldabsb imm => ⟨0x30, 0, 0, 0, imm⟩
  | .ldindw src imm => ⟨0x40, 0, regBits src, 0, imm⟩
  | .ldindh src imm => ⟨0x48, 0, regBits src, 0, imm⟩
  | .ldindb src imm => ⟨0x50, 0, regBits src, 0, imm⟩

/-- Whether an instruction takes two slots: exactly when its opcode is 0x18 (R104, R115). -/
def Instr.isWide (i : Instr) : Bool := (encodeFields i).opcode == 0x18

/-- How many slots an instruction takes, the `len` of R37. -/
def Instr.slots (i : Instr) : Nat := if i.isWide then 2 else 1

/-- Whether an instruction uses `next_imm`: subtypes 0, 2 and 6 of the 64-bit immediates do (R470). -/
def Instr.usesNext (i : Instr) : Bool :=
  i.isWide && ((encodeFields i).src == 0 || (encodeFields i).src == 2 || (encodeFields i).src == 6)

/-- The instruction with the given `next_imm`, where it uses one. -/
def Instr.withNext (i : Instr) (next : Word32) : Instr :=
  match i with
  | .lddw d imm _ => .lddw d imm next
  | .ldMapValFd d imm _ => .ldMapValFd d imm next
  | .ldMapValIdx d imm _ => .ldMapValIdx d imm next
  | i => i

/-- A wide instruction completed by its second slot: the low 32 bits must be zero, and `next_imm` too where it is not
used (R104, R114). -/
def completeWide (i : Instr) (second : Fields) : Except Reject Instr :=
  if second.word.extractLsb' 0 32 ≠ 0 then .error .badSecondSlot
  else if ¬ i.usesNext ∧ second.imm ≠ 0 then .error .unusedNextImm
  else .ok (i.withNext second.imm)

/-- The instruction at the head of a list of slots, and the slots after it (R114 without the checks against `Groups`
and `R10ReadOnly`, which are `WellFormed`'s). -/
def decode (e : Endian) : List Slot → Except Reject (Instr × List Slot)
  | [] => .error .truncated
  | first :: rest =>
    match decodeFields (first.fields e) with
    | .error r => .error r
    | .ok i =>
      if i.isWide then
        match rest with
        | [] => .error .truncated
        | second :: rest' =>
          match completeWide i (second.fields e) with
          | .error r => .error r
          | .ok j => .ok (j, rest')
      else .ok (i, rest)


/-- The `next_imm` of an instruction, zero where it has none (R104, R113). -/
def Instr.nextImm (i : Instr) : Word32 :=
  match i with
  | .lddw _ _ next => next
  | .ldMapValFd _ _ next => next
  | .ldMapValIdx _ _ next => next
  | _ => 0

/-- The fields of a wide instruction's second slot (R104). -/
def secondFields (next : Word32) : Fields := ⟨0, 0, 0, 0, next⟩

/-- The slots of an instruction on a host of the given byte order. -/
def encode (e : Endian) (i : Instr) : List Slot :=
  if i.isWide then [(encodeFields i).slot e, (secondFields i.nextImm).slot e] else [(encodeFields i).slot e]

/-- The canonical word of an instruction's first slot (R101). -/
def Instr.word (i : Instr) : BitVec 64 := (encodeFields i).word

/-- The conformance group of an instruction (R6, R128). -/
def Instr.group (i : Instr) : Group :=
  match i with
  | .add32K .. | .add32X .. | .sub32K .. | .sub32X .. | .or32K .. | .or32X .. | .and32K .. | .and32X ..
  | .lsh32K .. | .lsh32X .. | .rsh32K .. | .rsh32X .. | .neg32 .. | .xor32K .. | .xor32X .. | .mov32K ..
  | .mov32X .. | .movsx32From8 .. | .movsx32From16 .. | .arsh32K .. | .arsh32X .. | .le16 .. | .le32 ..
  | .be16 .. | .be32 .. | .bswap16 .. | .bswap32 .. | .ja .. | .ja32 .. | .jeq32K .. | .jeq32X .. | .jgt32K ..
  | .jgt32X .. | .jge32K .. | .jge32X .. | .jset32K .. | .jset32X .. | .jne32K .. | .jne32X .. | .jsgt32K ..
  | .jsgt32X .. | .jsge32K .. | .jsge32X .. | .jlt32K .. | .jlt32X .. | .jle32K .. | .jle32X .. | .jslt32K ..
  | .jslt32X .. | .jsle32K .. | .jsle32X .. | .callHelper .. | .callLocal .. | .callBtf .. | .exit | .ldxb ..
  | .ldxh .. | .ldxw .. | .ldxsb .. | .ldxsh .. | .ldxsw .. | .stb .. | .sth .. | .stw .. | .stxb .. | .stxh ..
  | .stxw .. => .base32
  | .add64K .. | .add64X .. | .sub64K .. | .sub64X .. | .or64K .. | .or64X .. | .and64K .. | .and64X ..
  | .lsh64K .. | .lsh64X .. | .rsh64K .. | .rsh64X .. | .neg64 .. | .xor64K .. | .xor64X .. | .mov64K ..
  | .mov64X .. | .movsx64From8 .. | .movsx64From16 .. | .movsx64From32 .. | .arsh64K .. | .arsh64X ..
  | .le64 .. | .be64 .. | .bswap64 .. | .jeqK .. | .jeqX .. | .jgtK .. | .jgtX .. | .jgeK .. | .jgeX ..
  | .jsetK .. | .jsetX .. | .jneK .. | .jneX .. | .jsgtK .. | .jsgtX .. | .jsgeK .. | .jsgeX .. | .jltK ..
  | .jltX .. | .jleK .. | .jleX .. | .jsltK .. | .jsltX .. | .jsleK .. | .jsleX .. | .ldxdw .. | .stdw ..
  | .stxdw .. | .lddw .. | .ldMapFd .. | .ldMapValFd .. | .ldVarAddr .. | .ldCodeAddr .. | .ldMapIdx ..
  | .ldMapValIdx .. => .base64
  | .atomicAdd32 .. | .atomicFetchAdd32 .. | .atomicOr32 .. | .atomicFetchOr32 .. | .atomicAnd32 ..
  | .atomicFetchAnd32 .. | .atomicXor32 .. | .atomicFetchXor32 .. | .atomicXchg32 .. | .atomicCmpxchg32 ..
    => .atomic32
  | .atomicAdd64 .. | .atomicFetchAdd64 .. | .atomicOr64 .. | .atomicFetchOr64 .. | .atomicAnd64 ..
  | .atomicFetchAnd64 .. | .atomicXor64 .. | .atomicFetchXor64 .. | .atomicXchg64 .. | .atomicCmpxchg64 ..
    => .atomic64
  | .mul32K .. | .mul32X .. | .div32K .. | .div32X .. | .sdiv32K .. | .sdiv32X .. | .mod32K .. | .mod32X ..
  | .smod32K .. | .smod32X .. => .divmul32
  | .mul64K .. | .mul64X .. | .div64K .. | .div64X .. | .sdiv64K .. | .sdiv64X .. | .mod64K .. | .mod64X ..
  | .smod64K .. | .smod64X .. => .divmul64
  | .ldabsw .. | .ldabsh .. | .ldabsb .. | .ldindw .. | .ldindh .. | .ldindb .. => .packet

/-- The register that an instruction writes through its `dst_reg` or `src_reg` field, if any (R34). The R0 that
compare-and-exchange writes is named by no field. -/
def Instr.writesReg (i : Instr) : Option Reg :=
  match i with
  | .neg32 d | .neg64 d | .le16 d | .le32 d | .le64 d | .be16 d | .be32 d | .be64 d | .bswap16 d | .bswap32 d
  | .bswap64 d => some d
  | .add32K d _ | .sub32K d _ | .mul32K d _ | .div32K d _ | .sdiv32K d _ | .or32K d _ | .and32K d _
  | .lsh32K d _ | .rsh32K d _ | .mod32K d _ | .smod32K d _ | .xor32K d _ | .mov32K d _ | .arsh32K d _
  | .add64K d _ | .sub64K d _ | .mul64K d _ | .div64K d _ | .sdiv64K d _ | .or64K d _ | .and64K d _
  | .lsh64K d _ | .rsh64K d _ | .mod64K d _ | .smod64K d _ | .xor64K d _ | .mov64K d _ | .arsh64K d _
  | .ldMapFd d _ | .ldVarAddr d _ | .ldCodeAddr d _ | .ldMapIdx d _ => some d
  | .add32X d _ | .sub32X d _ | .mul32X d _ | .div32X d _ | .sdiv32X d _ | .or32X d _ | .and32X d _
  | .lsh32X d _ | .rsh32X d _ | .mod32X d _ | .smod32X d _ | .xor32X d _ | .mov32X d _ | .movsx32From8 d _
  | .movsx32From16 d _ | .arsh32X d _ | .add64X d _ | .sub64X d _ | .mul64X d _ | .div64X d _ | .sdiv64X d _
  | .or64X d _ | .and64X d _ | .lsh64X d _ | .rsh64X d _ | .mod64X d _ | .smod64X d _ | .xor64X d _
  | .mov64X d _ | .movsx64From8 d _ | .movsx64From16 d _ | .movsx64From32 d _ | .arsh64X d _ => some d
  | .ldxb d _ _ | .ldxh d _ _ | .ldxw d _ _ | .ldxdw d _ _ | .ldxsb d _ _ | .ldxsh d _ _ | .ldxsw d _ _ => some d
  | .lddw d _ _ | .ldMapValFd d _ _ | .ldMapValIdx d _ _ => some d
  | .atomicFetchAdd32 _ src _ | .atomicFetchOr32 _ src _ | .atomicFetchAnd32 _ src _
  | .atomicFetchXor32 _ src _ | .atomicXchg32 _ src _ | .atomicFetchAdd64 _ src _ | .atomicFetchOr64 _ src _
  | .atomicFetchAnd64 _ src _ | .atomicFetchXor64 _ src _ | .atomicXchg64 _ src _ => some src
  | .ja .. | .ja32 .. | .jeqK .. | .jeqX .. | .jgtK .. | .jgtX .. | .jgeK .. | .jgeX .. | .jsetK .. | .jsetX ..
  | .jneK .. | .jneX .. | .jsgtK .. | .jsgtX .. | .jsgeK .. | .jsgeX .. | .jltK .. | .jltX .. | .jleK ..
  | .jleX .. | .jsltK .. | .jsltX .. | .jsleK .. | .jsleX .. | .jeq32K .. | .jeq32X .. | .jgt32K ..
  | .jgt32X .. | .jge32K .. | .jge32X .. | .jset32K .. | .jset32X .. | .jne32K .. | .jne32X .. | .jsgt32K ..
  | .jsgt32X .. | .jsge32K .. | .jsge32X .. | .jlt32K .. | .jlt32X .. | .jle32K .. | .jle32X .. | .jslt32K ..
  | .jslt32X .. | .jsle32K .. | .jsle32X .. | .callHelper .. | .callLocal .. | .callBtf .. | .exit | .stb ..
  | .sth .. | .stw .. | .stdw .. | .stxb .. | .stxh .. | .stxw .. | .stxdw .. | .atomicAdd32 ..
  | .atomicOr32 .. | .atomicAnd32 .. | .atomicXor32 .. | .atomicCmpxchg32 .. | .atomicAdd64 .. | .atomicOr64 ..
  | .atomicAnd64 .. | .atomicXor64 .. | .atomicCmpxchg64 .. | .ldabsw .. | .ldabsh .. | .ldabsb .. | .ldindw ..
  | .ldindh .. | .ldindb .. => none

/-- The "includes" relation of the conformance groups, every group including itself (R6). -/
def Group.includes (g h : Group) : Bool :=
  g == h || (g == .base64 && h == .base32) || (g == .atomic64 && h == .atomic32) || (g == .divmul64 && h == .divmul32)

/-- Whether a group is in `Groups`, closed under "includes" (R128). -/
def Params.supports (p : Params) (g : Group) : Bool := p.groups.any fun h => h.includes g

/-- Whether decoding must refuse an instruction because it writes R10 through a register field (R34). -/
def Params.refusesR10 (p : Params) (i : Instr) : Bool := p.r10ReadOnly && i.writesReg == some 10

/-- The slots of an instruction given as the opcode table numbers its bits: the first word in bits 63:0, a second in
bits 127:64, every bit from `nbits` up zero. -/
def tableSlots (e : Endian) (nbits w : Nat) : List Slot :=
  let v := w % 2 ^ nbits
  [(Fields.ofWord (BitVec.ofNat 64 v)).slot e, (Fields.ofWord (BitVec.ofNat 64 (v / 2 ^ 64))).slot e]

/-- The instruction that the decoder reads from the bits of an opcode-table row, laid out as a little-endian host
stores them; the two hosts' layouts hold the same instruction (R101). -/
def decodeTableWord (nbits w : Nat) : Option Instr :=
  match decode .little (tableSlots .little nbits w) with
  | .ok (i, _) => some i
  | .error _ => none

end Sys2Proof
end

