-- ==== Sys2Proof/Machine/State.lean ====
section
/-! DEFINITION. The state of the machine (R30 to R44) as plain data, its faults (R500), and its values at launch, which
stand for reset (R45, R550). -/

namespace Sys2Proof.Machine

/-- A general register: a 64-bit value, or unwritten (R33). Unwritten is the spec's own state. -/
inductive RegVal where
  | written (v : Word64)
  | unwritten
deriving DecidableEq, Repr

/-- The register file R0 to R10 (R30). -/
abbrev Regs := Vector RegVal 11

/-- The registers that a frame of `linux_abi` holds (R38, R386). -/
structure SavedRegs where
  r6 : RegVal
  r7 : RegVal
  r8 : RegVal
  r9 : RegVal
  r10 : RegVal
deriving DecidableEq, Repr

/-- The written bytes of memory: strictly rising addresses; an address that is not listed is unwritten (R42, R69). -/
abbrev Memory := List Host.Cell

/-- One frame of the call stack: the return slot and, under `linux_abi`, the saved registers (R38). -/
structure Frame where
  ret : Int
  saved : Option SavedRegs
deriving DecidableEq, Repr

/-- The kind of a memory access, as `MemFault` reports it (R505). -/
inductive AccessKind where
  | read
  | write
deriving DecidableEq, Repr

/-- The kind of a helper call (R385). -/
inductive HelperKind where
  | staticId
  | btfId
deriving DecidableEq, Repr

/-- A platform function and its arguments, as `PlatformLookup` reports them (R509). -/
inductive PlatformQuery where
  | mapByFd (imm : Word32)
  | mapByIdx (imm : Word32)
  | mapVal (map : Word64)
  | varAddr (imm : Word32)
  | codeAddr (pc : Int) (imm : Word32)
deriving DecidableEq, Repr

/-- The faults of R500, in the order of its table, each final; and `runEnded`, the model's own. -/
inductive Fault where
  /-- Raised by fetch: the slot index is not in the program (R502). Safe: the spec's own. -/
  | pcOutOfRange (slot : Int)
  /-- Raised by fetch: the slot is the second slot of a wide instruction (R503). Safe: the spec's own. -/
  | jumpIntoWide (slot : Int)
  /-- Raised by decode, and by a packet load where `PacketLoad` is not supplied or undefined (R490, R501). Safe: the
  spec's own. -/
  | illegalInstruction (slot : Int) (word : Word64)
  /-- Raised by the read of an unwritten register (R504). Safe: the spec's own. -/
  | uninitRegister (r : Reg)
  /-- Raised by loads, stores and atomics outside an admitted region (R505). Safe: the spec's own. -/
  | memFault (addr : Word64) (n : Nat) (kind : AccessKind)
  /-- Raised by loads, stores and atomics at an address that is no multiple of n (R506). Safe: the spec's own. -/
  | misaligned (addr : Word64) (n : Nat)
  /-- Raised by loads and atomics that read an unwritten byte of a private region (R507). Safe: the spec's own. -/
  | uninitMemory (addr : Word64) (n : Nat)
  /-- Raised by `CALL_LOCAL` beyond `MaxCallDepth` (R508). Safe: the spec's own. -/
  | callDepth (slot : Int)
  /-- Raised by helper calls where `Helper` is undefined for the pair (R385, R509). Safe: the spec's own. -/
  | unknownHelper (kind : HelperKind) (id : Word32)
  /-- Raised by helper calls that `Helper` answers with `Fault(info)` (R509); that `info` is one natural number is the
  MODEL's choice (DESIGN CHOICE, log 25). Safe: the spec's own. -/
  | helperFault (kind : HelperKind) (id : Word32) (info : Nat)
  /-- Raised by the 64-bit immediates other than `LDDW` where the platform function is undefined (R509). Safe: the
  spec's own. -/
  | platformLookup (query : PlatformQuery)
  /-- Answered by a step after the run has ended with `Exited(result)`: there is no step (R387, R552). No instruction
  raises it of its own. Safe. -/
  | runEnded (result : Word64)
deriving DecidableEq, Repr

/-- Why an instruction has no meaning in the model. -/
inductive Refusal where
  /-- Answered by `exec` for an instruction that is not modelled; none is left. Safe. -/
  | notModelled (mnemonic : String)
deriving DecidableEq, Repr

/-- The run status (R43). -/
inductive Status where
  | running
  | exited (result : Word64)
  | faulted (f : Fault)
deriving DecidableEq, Repr

/-! ## Helper and PacketLoad: partial functions that launch fixes (R10), as plain data -/

/-- What `Helper` is applied to beside kind and id: registers, memory and the oracle (R385). The oracle is the event
history and the number of the draw (DESIGN CHOICE, log 26). -/
structure HelperInput where
  regs : Regs
  mem : Memory
  events : List Event
  draw : Nat
deriving DecidableEq, Repr

/-- What `Helper` returns: `Ok`, with the registers after the call and the bytes it writes or makes unwritten, or
`Fault(info)` (R385). The spec does not say what a helper's own information is: one natural number is the MODEL's choice
(DESIGN CHOICE, log 25). -/
inductive HelperEffect where
  | ok (regs : Regs) (writes : List (Nat × Option Byte))
  | fault (info : Nat)
deriving DecidableEq, Repr, Inhabited

/-- The mode of a packet load, with `srcval` for IND (R490). -/
inductive PacketMode where
  | abs
  | ind (srcval : Word64)
deriving DecidableEq, Repr

/-- What `PacketLoad` is applied to (R490). -/
structure PacketInput where
  mode : PacketMode
  n : Nat
  imm : Word32
  regs : Regs
  mem : Memory
deriving DecidableEq, Repr

/-- What `PacketLoad` returns (R490). The spec does not say what fault its `Fault(info)` is: the MODEL lets `info` be any
fault, which the load raises (DESIGN CHOICE, log 12). -/
inductive PacketEffect where
  | ok (regs : Regs) (writes : List (Nat × Option Byte))
  | fault (info : Fault)
  | undefined
deriving DecidableEq, Repr, Inhabited

end Sys2Proof.Machine

/-- FREE VALUE: what a helper answers whose function the state's `Helper` leaves free (R385, log 9). It has no body:
nothing constrains it. -/
opaque Sys2Proof.Config.helper (kind : Sys2Proof.Machine.HelperKind) (id : Sys2Proof.Word32)
    (x : Sys2Proof.Machine.HelperInput) : Sys2Proof.Machine.HelperEffect

/-- FREE VALUE: what `PacketLoad` answers where the state's leaves it free (R490, log 11). It has no body: nothing
constrains it. -/
opaque Sys2Proof.Config.packetLoad (x : Sys2Proof.Machine.PacketInput) : Sys2Proof.Machine.PacketEffect

namespace Sys2Proof.Machine

/-- The whole state (R44), with the parameters of R10 beside it as data that no step changes (log 1, 9, 11), and what the
oracle sees: the event history (R72, log 8) and the number of the next draw (log 26). -/
structure State where
  /-- R0 to R10 (R30, R33). -/
  regs : Regs
  /-- The slot index of the instruction to execute (R36). -/
  pc : Int
  /-- The call stack, innermost frame first (R38). -/
  callStack : List Frame
  /-- The written bytes (R42). -/
  mem : Memory
  /-- The run status (R43). -/
  status : Status
  /-- The program text (R60, R76). -/
  prog : List Slot
  /-- The other parameters (R10). -/
  params : Params
  /-- The event history, newest first (R72). -/
  events : List Event
  /-- `Helper`: the function of each pair (kind, id) at which it is defined (R385). -/
  helper : List ((HelperKind × Word32) × PlatformFn HelperInput HelperEffect)
  /-- `PacketLoad`, none where the platform supplies none (R490). -/
  packetLoad : Option (PlatformFn PacketInput PacketEffect)
  /-- The MODEL's own field: how many helper calls have returned, which numbers the oracle's draws (log 26). -/
  draws : Nat
deriving DecidableEq, Repr

/-- The machine at launch (R45, R550) with the parameters of `Params.default`: pc 0, empty call stack, running, no byte
written, no program, no helper and no `PacketLoad`. `InitRegs` is open in the spec: every register is written 0 (DESIGN
CHOICE, log 2). A program is placed from outside (log 4): R551 asks for one slot at least, so without it this is no
launch yet. -/
def State.reset : State where
  regs := Vector.replicate 11 (.written 0)
  pc := 0
  callStack := []
  mem := []
  status := .running
  prog := []
  params := Params.default
  events := []
  helper := []
  packetLoad := none
  draws := 0

end Sys2Proof.Machine
end

