-- ==== Sys2Proof/Machine/Ops.lean ====
section
/-! DEFINITION. The named operations that the meanings share: raising a fault, registers, the program counter, memory
in its canonical form, byte order, admission, the read, write and atomic primitives of R62, R63 and R430, and the
platform's answers. An operation that may raise takes the rest of the instruction as its last argument. -/

namespace Sys2Proof.Machine

/-- What an instruction gives: a next state, for every instruction of the table. -/
abbrev Result := Host.Outcome State Fault Refusal

/-- Raising a fault, the only exception entry there is: nothing changes but `Status` (R43, R500, R512). There is no
handler and no return from a fault (R513). -/
def raise (f : Fault) (s : State) : Result := .next { s with status := .faulted f }

/-! ## Registers and program counter -/

/-- Reading `x[r]`: an unwritten register raises `UninitRegister` (R33, R504). -/
def readReg (r : Reg) (s : State) (k : Word64 → Result) : Result :=
  match s.regs[r] with
  | .written v => k v
  | .unwritten => raise (.uninitRegister r) s

/-- `x[r] <- v`: the register becomes written (R12, R33). -/
def State.setReg (s : State) (r : Reg) (v : Word64) : State := { s with regs := s.regs.set r (.written v) }

/-- `pc <- pc + len` (R37). -/
def State.advance (s : State) (len : Int) : State := { s with pc := s.pc + len }

/-- The end of an instruction that writes `x[r]` and goes on to the next one (R37). -/
def finish (s : State) (r : Reg) (v : Word64) (len : Int) : Result := .next ((s.setReg r v).advance len)

/-! ## Memory -/

/-- The byte at an address, none where it is unwritten (R42, R69). -/
def Memory.get (m : Memory) (a : Nat) : Option Byte :=
  match m with
  | [] => none
  | (b, v) :: rest => if b = a then some v else Memory.get rest a

/-- Memory with the byte at an address written (R63). -/
def Memory.set (m : Memory) (a : Nat) (v : Byte) : Memory :=
  match m with
  | [] => [(a, v)]
  | (b, w) :: rest =>
    if a < b then (a, v) :: (b, w) :: rest
    else if a = b then (a, v) :: rest
    else (b, w) :: Memory.set rest a v

/-- Memory with the byte at an address unwritten, which only a helper or packet answer can do (R385). -/
def Memory.erase (m : Memory) (a : Nat) : Memory := m.filter fun c => c.1 ≠ a

/-- The canonical form: strictly rising addresses below 2^64. An unlisted address reads as unwritten, so no entry can
equal it. -/
abbrev Memory.wf (m : Memory) : Prop := m.Pairwise (fun a b => a.1 < b.1) ∧ ∀ c ∈ m, c.1 < 2 ^ 64

/-- The given bytes stored at rising addresses from `a`. -/
def Memory.store (m : Memory) (a : Nat) (bytes : List Byte) : Memory :=
  match bytes with
  | [] => m
  | b :: rest => Memory.store (m.set a b) (a + 1) rest

/-! ## Byte order -/

/-- The low `n` bytes of a value, least significant first. -/
def leBytes (n : Nat) (v : Word64) : List Byte :=
  match n with
  | 0 => []
  | n + 1 => v.setWidth 8 :: leBytes n (v >>> 8)

/-- The value of bytes given least significant first, zero-extended to 64 bits. -/
def ofLeBytes (bytes : List Byte) : Word64 :=
  match bytes with
  | [] => 0
  | b :: rest => b.setWidth 64 ||| (ofLeBytes rest <<< 8)

/-- The bytes of an n-byte value in the order they lie in memory (R63, R64). -/
def hostBytes (e : Endian) (n : Nat) (v : Word64) : List Byte :=
  match e with
  | .little => leBytes n v
  | .big => (leBytes n v).reverse

/-- The value of bytes as they lie in memory, zero-extended to 64 bits (R62, R64). -/
def ofHostBytes (e : Endian) (bytes : List Byte) : Word64 :=
  match e with
  | .little => ofLeBytes bytes
  | .big => ofLeBytes bytes.reverse

/-! ## Admission and the memory primitives -/

/-- The bytes `a .. a+n-1`, without wrap, all lie in the region and below 2^64 (R61, R68). -/
def regionHolds (r : Region) (a n : Nat) : Bool :=
  decide (r.base ≤ a) && decide (a + n ≤ r.base + r.length) && decide (a + n ≤ 2 ^ 64)

/-- The region, with the needed permission, that admits an access of `n` bytes (R68). -/
def State.regionFor (s : State) (ok : Region → Bool) (addr : Word64) (n : Nat) : Option Region :=
  s.params.regions.find? fun r => ok r && regionHolds r addr.toNat n

/-- The byte that a read of a region sees: the stored one, or the oracle's for a shared region (R62, R69, R72). -/
def State.byteAt (s : State) (r : Region) (a : Nat) : Option Byte :=
  if r.shared then some (Config.readOracle s.events a) else s.mem.get a

/-- The `n` bytes from address `a` that a read of a region sees; none if one is unwritten (R62). -/
def State.load (s : State) (r : Region) (a : Nat) (n : Nat) : Option (List Byte) :=
  match n with
  | 0 => some []
  | n + 1 =>
    match s.byteAt r a, s.load r (a + 1) n with
    | some b, some rest => some (b :: rest)
    | _, _ => none

/-- The event history after an access to a region: only accesses to a shared region are recorded (R72). -/
def State.record (s : State) (r : Region) (ev : Event) : State :=
  if r.shared then { s with events := ev :: s.events } else s

/-- `MemRead(addr, n)` with its checks in order (R62); the value is zero-extended to 64 bits. Only the event history of
a shared region changes (R72, R78). -/
def memRead (addr : Word64) (n : Nat) (s : State) (k : Word64 → State → Result) : Result :=
  match s.regionFor (·.readable) addr n with
  | none => raise (.memFault addr n .read) s
  | some r =>
    if s.params.strictAlign ∧ addr.toNat % n ≠ 0 then raise (.misaligned addr n) s
    else
      match s.load r addr.toNat n with
      | none => raise (.uninitMemory addr n) s
      | some bytes =>
        let v := ofHostBytes s.params.endian bytes
        k v (s.record r (.read addr n v))

/-- The state with the low `n` bytes of `v` stored at `addr` in host byte order (R63). -/
def State.put (s : State) (addr : Word64) (n : Nat) (v : Word64) : State :=
  { s with mem := s.mem.store addr.toNat (hostBytes s.params.endian n v) }

/-- The low `n` bytes of a value, zero-extended: what an n-byte access transfers. -/
def lowBytes (n : Nat) (v : Word64) : Word64 := ofLeBytes (leBytes n v)

/-- `MemWrite(addr, n, v)` with its checks in order (R63): the low `n` bytes of `v` are stored. -/
def memWrite (addr : Word64) (n : Nat) (v : Word64) (s : State) (k : State → Result) : Result :=
  match s.regionFor (·.writable) addr n with
  | none => raise (.memFault addr n .write) s
  | some r =>
    if s.params.strictAlign ∧ addr.toNat % n ≠ 0 then raise (.misaligned addr n) s
    else k ((s.put addr n v).record r (.write addr n (lowBytes n v)))

/-- The state after an atomic operation that found `old` and stores `new`, if anything (R430). -/
def State.commit (s : State) (r : Region) (addr : Word64) (n : Nat) (old : Word64) (new : Option Word64) : State :=
  match new with
  | none => s.record r (.atomic addr n old none)
  | some v => (s.put addr n v).record r (.atomic addr n old (some (lowBytes n v)))

/-- One indivisible atomic operation on the `n` bytes at `addr`, with the checks of R430 in order: readable, writable,
aligned whatever `StrictAlign` is, written. `f` gives from the old value what is stored, if anything. -/
def atomicUpdate (addr : Word64) (n : Nat) (f : Word64 → Option Word64) (s : State)
    (k : Word64 → State → Result) : Result :=
  match s.regionFor (·.readable) addr n with
  | none => raise (.memFault addr n .read) s
  | some _ =>
    match s.regionFor (fun r => r.readable && r.writable) addr n with
    | none => raise (.memFault addr n .write) s
    | some r =>
      if addr.toNat % n ≠ 0 then raise (.misaligned addr n) s
      else
        match s.load r addr.toNat n with
        | none => raise (.uninitMemory addr n) s
        | some bytes =>
          let old := ofHostBytes s.params.endian bytes
          k old (s.commit r addr n old (f old))

/-! ## The platform -/

/-- A finite table as a partial function (R478, log 13). -/
def tableLookup {α β : Type} [DecidableEq α] (table : List (α × β)) (key : α) : Option β :=
  match table with
  | [] => none
  | (a, b) :: rest => if a = key then some b else tableLookup rest key

/-- The answer of a platform function, or `PlatformLookup` where it is undefined (R478, R509). -/
def platform (answer : Option Word64) (query : PlatformQuery) (s : State) (k : Word64 → Result) : Result :=
  match answer with
  | some v => k v
  | none => raise (.platformLookup query) s

/-- What a function of the platform answers at `x`; `free` is its free value (log 9, 11). -/
def answerAt {α β : Type} [DecidableEq α] (f : PlatformFn α β) (free : α → β) (x : α) : β :=
  match tableLookup f.listed x with
  | some y => y
  | none =>
    match f.otherwise with
    | some y => y
    | none => free x

/-- Memory after one write of the platform: the byte written or made unwritten where some region admits it; a byte
outside every region stays as it is (R385, log 10). -/
def applyWrite (regions : List Region) (m : Memory) (a : Nat) (v : Option Byte) : Memory :=
  if regions.any fun r => regionHolds r a 1 then
    match v with
    | some b => m.set a b
    | none => m.erase a
  else m

/-- Memory after the platform's writes, in order (R385). -/
def applyWrites (regions : List Region) (m : Memory) (writes : List (Nat × Option Byte)) : Memory :=
  match writes with
  | [] => m
  | (a, v) :: rest => applyWrites regions (applyWrite regions m a v) rest

/-- The state with the registers and bytes that the platform answered (R385, R490). -/
def State.install (s : State) (regs : Regs) (writes : List (Nat × Option Byte)) : State :=
  { s with regs := regs, mem := applyWrites s.params.regions s.mem writes }

end Sys2Proof.Machine
end

