-- ==== Sys2Proof/Machine/Operands.lean ====
section
/-! DEFINITION. The operand forms: the K and X source operands of each class (R106, R110), effective addresses (R61),
and jump distances (R320). -/

namespace Sys2Proof.Machine

/-- A source operand: the immediate field (K) or a register (X) (R106). -/
inductive Operand where
  | imm (v : Word32)
  | reg (r : Reg)
deriving DecidableEq, Repr

/-- A source operand of class ALU or JMP32: the 32 bits of `imm`, or the low half of a register (R200, R321). -/
def source32 (b : Operand) (s : State) (k : Word32 → Result) : Result :=
  match b with
  | .imm v => k v
  | .reg r => readReg r s fun v => k (low32 v)

/-- A source operand of class ALU64 or JMP: `imm` sign-extended, or a register (R250, R321). -/
def source64 (b : Operand) (s : State) (k : Word64 → Result) : Result :=
  match b with
  | .imm v => k (sext32 v)
  | .reg r => readReg r s k

/-- The effective address: base plus sign-extended offset, modulo 2^64 (R61). -/
def effAddr (base : Word64) (off : Off) : Word64 := base + off.signExtend 64

/-- The target of a taken jump by `offset`: `pc + 1 + s(offset)` in unbounded integers (R320). -/
def State.jumpBy (s : State) (off : Off) : State := s.advance (1 + off.toInt)

/-- The target of a jump or local call by `imm`: `pc + 1 + s(imm)` (R320, R382). -/
def State.jumpFar (s : State) (imm : Word32) : State := s.advance (1 + imm.toInt)

/-- The value that ST stores: `imm` sign-extended to 64 bits, of which a narrower access takes the low bytes (R401). -/
def storedImm (imm : Word32) : Word64 := sext32 imm

end Sys2Proof.Machine
end

