-- ==== Sys2Proof/Machine/Alu32.lean ====
section
/-! DEFINITION. The instructions of class ALU other than the byte swaps (R210 to R240): 32-bit operands, no flags
(R39), 32-bit results zero-extended to 64 bits (R206). -/

namespace Sys2Proof.Machine

/-- An operation of class ALU on the low halves of `x[d]` and the source operand, read in that order (R200, R206). -/
def alu32 (f : Word32 → Word32 → Word32) (d : Reg) (b : Operand) (s : State) : Result :=
  readReg d s fun x => source32 b s fun y => finish s d (zext32 (f (low32 x) y)) 1

/-- NEG, which has no source operand (R208). -/
def neg32 (d : Reg) (s : State) : Result := readReg d s fun x => finish s d (zext32 (-low32 x)) 1

/-- MOV and MOVSX of class ALU, which do not read `x[d]` (R200, R206). -/
def move32 (f : Word32 → Word32) (d : Reg) (b : Operand) (s : State) : Result :=
  source32 b s fun y => finish s d (zext32 (f y)) 1

/-- `ADD32_K` (R210). -/
def execAdd32K (d : Reg) (imm : Word32) (s : State) : Result := alu32 (fun a b => a + b) d (.imm imm) s

/-- `ADD32_X` (R211). -/
def execAdd32X (d src : Reg) (s : State) : Result := alu32 (fun a b => a + b) d (.reg src) s

/-- `SUB32_K` (R212). -/
def execSub32K (d : Reg) (imm : Word32) (s : State) : Result := alu32 (fun a b => a - b) d (.imm imm) s

/-- `SUB32_X` (R213). -/
def execSub32X (d src : Reg) (s : State) : Result := alu32 (fun a b => a - b) d (.reg src) s

/-- `MUL32_K` (R214). -/
def execMul32K (d : Reg) (imm : Word32) (s : State) : Result := alu32 (fun a b => a * b) d (.imm imm) s

/-- `MUL32_X` (R215). -/
def execMul32X (d src : Reg) (s : State) : Result := alu32 (fun a b => a * b) d (.reg src) s

/-- `DIV32_K` (R216). -/
def execDiv32K (d : Reg) (imm : Word32) (s : State) : Result := alu32 divU d (.imm imm) s

/-- `DIV32_X` (R217). -/
def execDiv32X (d src : Reg) (s : State) : Result := alu32 divU d (.reg src) s

/-- `SDIV32_K` (R218). -/
def execSdiv32K (d : Reg) (imm : Word32) (s : State) : Result :=
  alu32 (divS s.params.sdivOverflow.quot32) d (.imm imm) s

/-- `SDIV32_X` (R219). -/
def execSdiv32X (d src : Reg) (s : State) : Result := alu32 (divS s.params.sdivOverflow.quot32) d (.reg src) s

/-- `OR32_K` (R220). -/
def execOr32K (d : Reg) (imm : Word32) (s : State) : Result := alu32 (fun a b => a ||| b) d (.imm imm) s

/-- `OR32_X` (R221). -/
def execOr32X (d src : Reg) (s : State) : Result := alu32 (fun a b => a ||| b) d (.reg src) s

/-- `AND32_K` (R222). -/
def execAnd32K (d : Reg) (imm : Word32) (s : State) : Result := alu32 (fun a b => a &&& b) d (.imm imm) s

/-- `AND32_X` (R223). -/
def execAnd32X (d src : Reg) (s : State) : Result := alu32 (fun a b => a &&& b) d (.reg src) s

/-- `LSH32_K` (R224). -/
def execLsh32K (d : Reg) (imm : Word32) (s : State) : Result := alu32 (fun a b => a <<< shift32 b) d (.imm imm) s

/-- `LSH32_X` (R225). -/
def execLsh32X (d src : Reg) (s : State) : Result := alu32 (fun a b => a <<< shift32 b) d (.reg src) s

/-- `RSH32_K` (R226). -/
def execRsh32K (d : Reg) (imm : Word32) (s : State) : Result := alu32 (fun a b => a >>> shift32 b) d (.imm imm) s

/-- `RSH32_X` (R227). -/
def execRsh32X (d src : Reg) (s : State) : Result := alu32 (fun a b => a >>> shift32 b) d (.reg src) s

/-- `NEG32` (R228). -/
def execNeg32 (d : Reg) (s : State) : Result := neg32 d s

/-- `MOD32_K` (R229). -/
def execMod32K (d : Reg) (imm : Word32) (s : State) : Result := alu32 modU d (.imm imm) s

/-- `MOD32_X` (R230). -/
def execMod32X (d src : Reg) (s : State) : Result := alu32 modU d (.reg src) s

/-- `SMOD32_K` (R231). -/
def execSmod32K (d : Reg) (imm : Word32) (s : State) : Result :=
  alu32 (modS s.params.sdivOverflow.rem32) d (.imm imm) s

/-- `SMOD32_X` (R232). -/
def execSmod32X (d src : Reg) (s : State) : Result := alu32 (modS s.params.sdivOverflow.rem32) d (.reg src) s

/-- `XOR32_K` (R233). -/
def execXor32K (d : Reg) (imm : Word32) (s : State) : Result := alu32 (fun a b => a ^^^ b) d (.imm imm) s

/-- `XOR32_X` (R234). -/
def execXor32X (d src : Reg) (s : State) : Result := alu32 (fun a b => a ^^^ b) d (.reg src) s

/-- `MOV32_K` (R235). -/
def execMov32K (d : Reg) (imm : Word32) (s : State) : Result := move32 (fun b => b) d (.imm imm) s

/-- `MOV32_X` (R236). -/
def execMov32X (d src : Reg) (s : State) : Result := move32 (fun b => b) d (.reg src) s

/-- `MOVSX32_8` (R237). -/
def execMovsx32From8 (d src : Reg) (s : State) : Result :=
  move32 (fun b => (b.setWidth 8).signExtend 32) d (.reg src) s

/-- `MOVSX32_16` (R238). -/
def execMovsx32From16 (d src : Reg) (s : State) : Result :=
  move32 (fun b => (b.setWidth 16).signExtend 32) d (.reg src) s

/-- `ARSH32_K` (R239). -/
def execArsh32K (d : Reg) (imm : Word32) (s : State) : Result :=
  alu32 (fun a b => a.sshiftRight (shift32 b)) d (.imm imm) s

/-- `ARSH32_X` (R240). -/
def execArsh32X (d src : Reg) (s : State) : Result := alu32 (fun a b => a.sshiftRight (shift32 b)) d (.reg src) s

end Sys2Proof.Machine
end

