-- ==== Sys2Proof/Machine/Alu64.lean ====
section
/-! DEFINITION. The instructions of class ALU64 other than the byte swaps (R251 to R282): 64-bit operands, no flags
(R39), results of all 64 bits (R250). -/

namespace Sys2Proof.Machine

/-- An operation of class ALU64 on `x[d]` and the source operand, read in that order (R250). -/
def alu64 (f : Word64 → Word64 → Word64) (d : Reg) (b : Operand) (s : State) : Result :=
  readReg d s fun x => source64 b s fun y => finish s d (f x y) 1

/-- NEG, which has no source operand (R208). -/
def neg64 (d : Reg) (s : State) : Result := readReg d s fun x => finish s d (-x) 1

/-- MOV and MOVSX of class ALU64, which do not read `x[d]` (R250). -/
def move64 (f : Word64 → Word64) (d : Reg) (b : Operand) (s : State) : Result :=
  source64 b s fun y => finish s d (f y) 1

/-- `ADD64_K` (R251). -/
def execAdd64K (d : Reg) (imm : Word32) (s : State) : Result := alu64 (fun a b => a + b) d (.imm imm) s

/-- `ADD64_X` (R252). -/
def execAdd64X (d src : Reg) (s : State) : Result := alu64 (fun a b => a + b) d (.reg src) s

/-- `SUB64_K` (R253). -/
def execSub64K (d : Reg) (imm : Word32) (s : State) : Result := alu64 (fun a b => a - b) d (.imm imm) s

/-- `SUB64_X` (R254). -/
def execSub64X (d src : Reg) (s : State) : Result := alu64 (fun a b => a - b) d (.reg src) s

/-- `MUL64_K` (R255). -/
def execMul64K (d : Reg) (imm : Word32) (s : State) : Result := alu64 (fun a b => a * b) d (.imm imm) s

/-- `MUL64_X` (R256). -/
def execMul64X (d src : Reg) (s : State) : Result := alu64 (fun a b => a * b) d (.reg src) s

/-- `DIV64_K` (R257). -/
def execDiv64K (d : Reg) (imm : Word32) (s : State) : Result := alu64 divU d (.imm imm) s

/-- `DIV64_X` (R258). -/
def execDiv64X (d src : Reg) (s : State) : Result := alu64 divU d (.reg src) s

/-- `SDIV64_K` (R259). -/
def execSdiv64K (d : Reg) (imm : Word32) (s : State) : Result :=
  alu64 (divS s.params.sdivOverflow.quot64) d (.imm imm) s

/-- `SDIV64_X` (R260). -/
def execSdiv64X (d src : Reg) (s : State) : Result := alu64 (divS s.params.sdivOverflow.quot64) d (.reg src) s

/-- `OR64_K` (R261). -/
def execOr64K (d : Reg) (imm : Word32) (s : State) : Result := alu64 (fun a b => a ||| b) d (.imm imm) s

/-- `OR64_X` (R262). -/
def execOr64X (d src : Reg) (s : State) : Result := alu64 (fun a b => a ||| b) d (.reg src) s

/-- `AND64_K` (R263). -/
def execAnd64K (d : Reg) (imm : Word32) (s : State) : Result := alu64 (fun a b => a &&& b) d (.imm imm) s

/-- `AND64_X` (R264). -/
def execAnd64X (d src : Reg) (s : State) : Result := alu64 (fun a b => a &&& b) d (.reg src) s

/-- `LSH64_K` (R265). -/
def execLsh64K (d : Reg) (imm : Word32) (s : State) : Result := alu64 (fun a b => a <<< shift64 b) d (.imm imm) s

/-- `LSH64_X` (R266). -/
def execLsh64X (d src : Reg) (s : State) : Result := alu64 (fun a b => a <<< shift64 b) d (.reg src) s

/-- `RSH64_K` (R267). -/
def execRsh64K (d : Reg) (imm : Word32) (s : State) : Result := alu64 (fun a b => a >>> shift64 b) d (.imm imm) s

/-- `RSH64_X` (R268). -/
def execRsh64X (d src : Reg) (s : State) : Result := alu64 (fun a b => a >>> shift64 b) d (.reg src) s

/-- `NEG64` (R269). -/
def execNeg64 (d : Reg) (s : State) : Result := neg64 d s

/-- `MOD64_K` (R270). -/
def execMod64K (d : Reg) (imm : Word32) (s : State) : Result := alu64 modU d (.imm imm) s

/-- `MOD64_X` (R271). -/
def execMod64X (d src : Reg) (s : State) : Result := alu64 modU d (.reg src) s

/-- `SMOD64_K` (R272). -/
def execSmod64K (d : Reg) (imm : Word32) (s : State) : Result :=
  alu64 (modS s.params.sdivOverflow.rem64) d (.imm imm) s

/-- `SMOD64_X` (R273). -/
def execSmod64X (d src : Reg) (s : State) : Result := alu64 (modS s.params.sdivOverflow.rem64) d (.reg src) s

/-- `XOR64_K` (R274). -/
def execXor64K (d : Reg) (imm : Word32) (s : State) : Result := alu64 (fun a b => a ^^^ b) d (.imm imm) s

/-- `XOR64_X` (R275). -/
def execXor64X (d src : Reg) (s : State) : Result := alu64 (fun a b => a ^^^ b) d (.reg src) s

/-- `MOV64_K` (R276). -/
def execMov64K (d : Reg) (imm : Word32) (s : State) : Result := move64 (fun b => b) d (.imm imm) s

/-- `MOV64_X` (R277). -/
def execMov64X (d src : Reg) (s : State) : Result := move64 (fun b => b) d (.reg src) s

/-- `MOVSX64_8` (R278). -/
def execMovsx64From8 (d src : Reg) (s : State) : Result :=
  move64 (fun b => (b.setWidth 8).signExtend 64) d (.reg src) s

/-- `MOVSX64_16` (R279). -/
def execMovsx64From16 (d src : Reg) (s : State) : Result :=
  move64 (fun b => (b.setWidth 16).signExtend 64) d (.reg src) s

/-- `MOVSX64_32` (R280). -/
def execMovsx64From32 (d src : Reg) (s : State) : Result :=
  move64 (fun b => (b.setWidth 32).signExtend 64) d (.reg src) s

/-- `ARSH64_K` (R281). -/
def execArsh64K (d : Reg) (imm : Word32) (s : State) : Result :=
  alu64 (fun a b => a.sshiftRight (shift64 b)) d (.imm imm) s

/-- `ARSH64_X` (R282). -/
def execArsh64X (d src : Reg) (s : State) : Result := alu64 (fun a b => a.sshiftRight (shift64 b)) d (.reg src) s

end Sys2Proof.Machine
end

