-- ==== Sys2Proof/Machine/Atomic.lean ====
section
/-! DEFINITION. The atomic operations (R430 to R451): one indivisible read, computation and write of 4 or 8 bytes;
registers are read in the order dst, src, R0; a 32-bit old value is zero-extended into its register (R430). -/

namespace Sys2Proof.Machine

/-- A 32-bit operation on values held in 64 bits: the low halves are combined and zero-extended. -/
def onLow (f : Word32 → Word32 → Word32) (a b : Word64) : Word64 := zext32 (f (low32 a) (low32 b))

/-- An atomic operation on `n` bytes that returns nothing (R431): `old` becomes `f old x[src]`. -/
def atomicSimple (n : Nat) (f : Word64 → Word64 → Word64) (d src : Reg) (off : Off) (s : State) : Result :=
  readReg d s fun base => readReg src s fun v =>
    atomicUpdate (effAddr base off) n (fun old => some (f old v)) s fun _ s' => .next (s'.advance 1)

/-- An atomic operation on `n` bytes that writes the old value to `src` (R431). -/
def atomicFetch (n : Nat) (f : Word64 → Word64 → Word64) (d src : Reg) (off : Off) (s : State) : Result :=
  readReg d s fun base => readReg src s fun v =>
    atomicUpdate (effAddr base off) n (fun old => some (f old v)) s fun old s' => finish s' src old 1

/-- Compare and exchange of `n` bytes: `x[src]` is stored where the old value equals the low `n` bytes of R0, and R0
becomes the old value in either case (R441, R451). -/
def atomicCompare (n : Nat) (d src : Reg) (off : Off) (s : State) : Result :=
  readReg d s fun base => readReg src s fun v => readReg 0 s fun c =>
    atomicUpdate (effAddr base off) n (fun old => if old = lowBytes n c then some v else none) s
      fun old s' => finish s' 0 old 1

/-- `ATOMIC_ADD32` (R432). -/
def execAtomicAdd32 (d src : Reg) (off : Off) (s : State) : Result :=
  atomicSimple 4 (onLow (fun a b => a + b)) d src off s

/-- `ATOMIC_FETCH_ADD32` (R433). -/
def execAtomicFetchAdd32 (d src : Reg) (off : Off) (s : State) : Result :=
  atomicFetch 4 (onLow (fun a b => a + b)) d src off s

/-- `ATOMIC_OR32` (R434). -/
def execAtomicOr32 (d src : Reg) (off : Off) (s : State) : Result :=
  atomicSimple 4 (onLow (fun a b => a ||| b)) d src off s

/-- `ATOMIC_FETCH_OR32` (R435). -/
def execAtomicFetchOr32 (d src : Reg) (off : Off) (s : State) : Result :=
  atomicFetch 4 (onLow (fun a b => a ||| b)) d src off s

/-- `ATOMIC_AND32` (R436). -/
def execAtomicAnd32 (d src : Reg) (off : Off) (s : State) : Result :=
  atomicSimple 4 (onLow (fun a b => a &&& b)) d src off s

/-- `ATOMIC_FETCH_AND32` (R437). -/
def execAtomicFetchAnd32 (d src : Reg) (off : Off) (s : State) : Result :=
  atomicFetch 4 (onLow (fun a b => a &&& b)) d src off s

/-- `ATOMIC_XOR32` (R438). -/
def execAtomicXor32 (d src : Reg) (off : Off) (s : State) : Result :=
  atomicSimple 4 (onLow (fun a b => a ^^^ b)) d src off s

/-- `ATOMIC_FETCH_XOR32` (R439). -/
def execAtomicFetchXor32 (d src : Reg) (off : Off) (s : State) : Result :=
  atomicFetch 4 (onLow (fun a b => a ^^^ b)) d src off s

/-- `ATOMIC_XCHG32` (R440). -/
def execAtomicXchg32 (d src : Reg) (off : Off) (s : State) : Result :=
  atomicFetch 4 (onLow (fun _ v => v)) d src off s

/-- `ATOMIC_CMPXCHG32` (R441). -/
def execAtomicCmpxchg32 (d src : Reg) (off : Off) (s : State) : Result := atomicCompare 4 d src off s

/-- `ATOMIC_ADD64` (R442). -/
def execAtomicAdd64 (d src : Reg) (off : Off) (s : State) : Result := atomicSimple 8 (fun a b => a + b) d src off s

/-- `ATOMIC_FETCH_ADD64` (R443). -/
def execAtomicFetchAdd64 (d src : Reg) (off : Off) (s : State) : Result :=
  atomicFetch 8 (fun a b => a + b) d src off s

/-- `ATOMIC_OR64` (R444). -/
def execAtomicOr64 (d src : Reg) (off : Off) (s : State) : Result := atomicSimple 8 (fun a b => a ||| b) d src off s

/-- `ATOMIC_FETCH_OR64` (R445). -/
def execAtomicFetchOr64 (d src : Reg) (off : Off) (s : State) : Result :=
  atomicFetch 8 (fun a b => a ||| b) d src off s

/-- `ATOMIC_AND64` (R446). -/
def execAtomicAnd64 (d src : Reg) (off : Off) (s : State) : Result := atomicSimple 8 (fun a b => a &&& b) d src off s

/-- `ATOMIC_FETCH_AND64` (R447). -/
def execAtomicFetchAnd64 (d src : Reg) (off : Off) (s : State) : Result :=
  atomicFetch 8 (fun a b => a &&& b) d src off s

/-- `ATOMIC_XOR64` (R448). -/
def execAtomicXor64 (d src : Reg) (off : Off) (s : State) : Result := atomicSimple 8 (fun a b => a ^^^ b) d src off s

/-- `ATOMIC_FETCH_XOR64` (R449). -/
def execAtomicFetchXor64 (d src : Reg) (off : Off) (s : State) : Result :=
  atomicFetch 8 (fun a b => a ^^^ b) d src off s

/-- `ATOMIC_XCHG64` (R450). -/
def execAtomicXchg64 (d src : Reg) (off : Off) (s : State) : Result := atomicFetch 8 (fun _ v => v) d src off s

/-- `ATOMIC_CMPXCHG64` (R451). -/
def execAtomicCmpxchg64 (d src : Reg) (off : Off) (s : State) : Result := atomicCompare 8 d src off s

end Sys2Proof.Machine
end

