-- ==== Sys2Proof/Machine/ByteSwap.lean ====
section
/-! DEFINITION. The nine byte-swap instructions (R300 to R309): the low 16, 32 or 64 bits of `x[d]` are converted, and
the result is zero-extended to 64 bits from its own width, in class ALU too (R300). -/

namespace Sys2Proof.Machine

/-- A byte swap of the low `n` bits of `x[d]`, zero-extended (R300). -/
def swapBytes {n : Nat} (f : BitVec n → BitVec n) (d : Reg) (s : State) : Result :=
  readReg d s fun x => finish s d ((f (x.setWidth n)).setWidth 64) 1

/-- `LE16` (R301). -/
def execLe16 (d : Reg) (s : State) : Result := swapBytes (toLittle s.params.endian bswap16) d s

/-- `LE32` (R302). -/
def execLe32 (d : Reg) (s : State) : Result := swapBytes (toLittle s.params.endian bswap32) d s

/-- `LE64` (R303). -/
def execLe64 (d : Reg) (s : State) : Result := swapBytes (toLittle s.params.endian bswap64) d s

/-- `BE16` (R304). -/
def execBe16 (d : Reg) (s : State) : Result := swapBytes (toBig s.params.endian bswap16) d s

/-- `BE32` (R305). -/
def execBe32 (d : Reg) (s : State) : Result := swapBytes (toBig s.params.endian bswap32) d s

/-- `BE64` (R306). -/
def execBe64 (d : Reg) (s : State) : Result := swapBytes (toBig s.params.endian bswap64) d s

/-- `BSWAP16` (R307). -/
def execBswap16 (d : Reg) (s : State) : Result := swapBytes bswap16 d s

/-- `BSWAP32` (R308). -/
def execBswap32 (d : Reg) (s : State) : Result := swapBytes bswap32 d s

/-- `BSWAP64` (R309). -/
def execBswap64 (d : Reg) (s : State) : Result := swapBytes bswap64 d s

end Sys2Proof.Machine
end

