-- ==== Sys2Proof/Machine/CallExit.lean ====
section
/-! DEFINITION. Calls and exit (R380 to R387): helper calls answered by `Helper`, program-local calls with hidden
frames, and EXIT, which returns from a function or ends the run. -/

namespace Sys2Proof.Machine

/-- What a helper is applied to in this state (R385; the oracle is log 26). -/
def State.helperInput (s : State) : HelperInput := ⟨s.regs, s.mem, s.events, s.draws⟩

/-- `Helper(kind, id, regs, mem, oracle)`, none where it is undefined for the pair (R385). -/
def State.helperAnswer (s : State) (kind : HelperKind) (id : Word32) : Option HelperEffect :=
  match tableLookup s.helper (kind, id) with
  | some f => some (answerAt f (Config.helper kind id) s.helperInput)
  | none => none

/-- A helper call: the registers and memory become what `Helper` returns, and the oracle's next draw has the next number;
or it is a fault (R385, R509). -/
def callPlatform (kind : HelperKind) (id : Word32) (s : State) : Result :=
  match s.helperAnswer kind id with
  | none => raise (.unknownHelper kind id) s
  | some (.fault info) => raise (.helperFault kind id info) s
  | some (.ok regs writes) => .next (({ s with draws := s.draws + 1 }.install regs writes).advance 1)

/-- What a frame of the state's `LocalCallConv` saves (R386). -/
def State.saved (s : State) : Option SavedRegs :=
  match s.params.localCallConv with
  | .pcOnly => none
  | .linuxAbi => some ⟨s.regs[6], s.regs[7], s.regs[8], s.regs[9], s.regs[10]⟩

/-- R10 lowered by `FrameStride` where it is written (R386). -/
def lowered (v : RegVal) (stride : Nat) : RegVal :=
  match v with
  | .written x => .written (x - BitVec.ofNat 64 stride)
  | .unwritten => .unwritten

/-- The callee's registers: under `linux_abi` R6 to R9 become unwritten and R10 is lowered (R386). -/
def State.calleeRegs (s : State) : Regs :=
  match s.params.localCallConv with
  | .pcOnly => s.regs
  | .linuxAbi =>
    #v[s.regs[0], s.regs[1], s.regs[2], s.regs[3], s.regs[4], s.regs[5], .unwritten, .unwritten, .unwritten, .unwritten,
      lowered s.regs[10] s.params.frameStride]

/-- The registers after a return: a frame that saved registers restores R6 to R10 and makes R1 to R5 unwritten; R0
stays (R386). -/
def returnRegs (saved : Option SavedRegs) (regs : Regs) : Regs :=
  match saved with
  | none => regs
  | some v =>
    #v[regs[0], .unwritten, .unwritten, .unwritten, .unwritten, .unwritten, v.r6, v.r7, v.r8, v.r9, v.r10]

/-- Whether one more frame would exceed `MaxCallDepth` (R386). -/
def State.depthReached (s : State) : Bool :=
  match s.params.maxCallDepth with
  | none => false
  | some n => decide (n ≤ s.callStack.length)

/-- Pushing the frame of a local call and applying the register changes of `LocalCallConv` (R382, R386). -/
def State.pushFrame (s : State) : State :=
  { s with callStack := ⟨s.pc + 1, s.saved⟩ :: s.callStack, regs := s.calleeRegs }

/-- `CALL_HELPER` (R381). -/
def execCallHelper (imm : Word32) (s : State) : Result := callPlatform .staticId imm s

/-- `CALL_LOCAL` (R382). -/
def execCallLocal (imm : Word32) (s : State) : Result :=
  if s.depthReached then raise (.callDepth s.pc) s else .next (s.pushFrame.jumpFar imm)

/-- `CALL_BTF` (R383). -/
def execCallBtf (imm : Word32) (s : State) : Result := callPlatform .btfId imm s

/-- `EXIT` (R384, R387). -/
def execExit (s : State) : Result :=
  match s.callStack with
  | [] => readReg 0 s fun x => .next { s with status := .exited x }
  | f :: rest => .next { s with callStack := rest, regs := returnRegs f.saved s.regs, pc := f.ret }

end Sys2Proof.Machine
end

