-- ==== Sys2Proof/Machine/Imm64.lean ====
section
/-! DEFINITION. The 64-bit immediate instructions (R470 to R478): they read no register and no memory, and go on two
slots further. -/

namespace Sys2Proof.Machine

/-- `LDDW` (R471). -/
def execLddw (d : Reg) (imm next : Word32) (s : State) : Result := finish s d ((zext32 next <<< 32) ||| zext32 imm) 2

/-- `LD_MAP_FD` (R472). -/
def execLdMapFd (d : Reg) (imm : Word32) (s : State) : Result :=
  platform (tableLookup s.params.mapByFd imm) (.mapByFd imm) s fun m => finish s d m 2

/-- `LD_MAP_VAL_FD` (R473). -/
def execLdMapValFd (d : Reg) (imm next : Word32) (s : State) : Result :=
  platform (tableLookup s.params.mapByFd imm) (.mapByFd imm) s fun m =>
    platform (tableLookup s.params.mapVal m) (.mapVal m) s fun a => finish s d (a + zext32 next) 2

/-- `LD_VAR_ADDR` (R474). -/
def execLdVarAddr (d : Reg) (imm : Word32) (s : State) : Result :=
  platform (tableLookup s.params.varAddr imm) (.varAddr imm) s fun a => finish s d a 2

/-- `LD_CODE_ADDR` (R475). -/
def execLdCodeAddr (d : Reg) (imm : Word32) (s : State) : Result :=
  platform (tableLookup s.params.codeAddr (s.pc, imm)) (.codeAddr s.pc imm) s fun a => finish s d a 2

/-- `LD_MAP_IDX` (R476). -/
def execLdMapIdx (d : Reg) (imm : Word32) (s : State) : Result :=
  platform (tableLookup s.params.mapByIdx imm) (.mapByIdx imm) s fun m => finish s d m 2

/-- `LD_MAP_VAL_IDX` (R477). -/
def execLdMapValIdx (d : Reg) (imm next : Word32) (s : State) : Result :=
  platform (tableLookup s.params.mapByIdx imm) (.mapByIdx imm) s fun m =>
    platform (tableLookup s.params.mapVal m) (.mapVal m) s fun a => finish s d (a + zext32 next) 2

end Sys2Proof.Machine
end

