-- ==== Sys2Proof/Machine/Flags.lean ====
section
/-! DEFINITION. The machine has no flags (R39): no instruction records a carry, overflow, zero or sign. What other
machines read from flags, a conditional jump computes from its own two operands; this file holds those comparisons, one
per code of R323, at any width. -/

namespace Sys2Proof.Machine

/-- The eleven conditions (R323). -/
inductive Cond where
  | eq
  | gt
  | ge
  | set
  | ne
  | sgt
  | sge
  | lt
  | le
  | slt
  | sle
deriving DecidableEq, Repr

/-- Whether a condition holds of the operands `a` (dst) and `b` (src): unsigned, or signed for the S conditions; JSET
tests for a common bit (R323). -/
def Cond.holds {n : Nat} (c : Cond) (a b : BitVec n) : Bool :=
  match c with
  | .eq => decide (a = b)
  | .gt => decide (a.toNat > b.toNat)
  | .ge => decide (a.toNat ≥ b.toNat)
  | .set => decide (a &&& b ≠ 0)
  | .ne => decide (a ≠ b)
  | .sgt => decide (a.toInt > b.toInt)
  | .sge => decide (a.toInt ≥ b.toInt)
  | .lt => decide (a.toNat < b.toNat)
  | .le => decide (a.toNat ≤ b.toNat)
  | .slt => decide (a.toInt < b.toInt)
  | .sle => decide (a.toInt ≤ b.toInt)

end Sys2Proof.Machine
end

