-- ==== Sys2Proof/Machine/Jump.lean ====
section
/-! DEFINITION. JA and the conditional jumps of class JMP (R324, R326 to R347): 64-bit operands, targets unchecked
until the next fetch (R320). -/

namespace Sys2Proof.Machine

/-- A conditional jump of class JMP: operands read in the order dst, src; nothing but `pc` is written (R320, R321). -/
def branch64 (c : Cond) (d : Reg) (b : Operand) (off : Off) (s : State) : Result :=
  readReg d s fun x => source64 b s fun y => .next (if c.holds x y then s.jumpBy off else s.advance 1)

/-- `JA` (R324). -/
def execJa (off : Off) (s : State) : Result := .next (s.jumpBy off)

/-- `JEQ_K` (R326). -/
def execJeqK (d : Reg) (imm : Word32) (off : Off) (s : State) : Result := branch64 .eq d (.imm imm) off s

/-- `JEQ_X` (R327). -/
def execJeqX (d src : Reg) (off : Off) (s : State) : Result := branch64 .eq d (.reg src) off s

/-- `JGT_K` (R328). -/
def execJgtK (d : Reg) (imm : Word32) (off : Off) (s : State) : Result := branch64 .gt d (.imm imm) off s

/-- `JGT_X` (R329). -/
def execJgtX (d src : Reg) (off : Off) (s : State) : Result := branch64 .gt d (.reg src) off s

/-- `JGE_K` (R330). -/
def execJgeK (d : Reg) (imm : Word32) (off : Off) (s : State) : Result := branch64 .ge d (.imm imm) off s

/-- `JGE_X` (R331). -/
def execJgeX (d src : Reg) (off : Off) (s : State) : Result := branch64 .ge d (.reg src) off s

/-- `JSET_K` (R332). -/
def execJsetK (d : Reg) (imm : Word32) (off : Off) (s : State) : Result := branch64 .set d (.imm imm) off s

/-- `JSET_X` (R333). -/
def execJsetX (d src : Reg) (off : Off) (s : State) : Result := branch64 .set d (.reg src) off s

/-- `JNE_K` (R334). -/
def execJneK (d : Reg) (imm : Word32) (off : Off) (s : State) : Result := branch64 .ne d (.imm imm) off s

/-- `JNE_X` (R335). -/
def execJneX (d src : Reg) (off : Off) (s : State) : Result := branch64 .ne d (.reg src) off s

/-- `JSGT_K` (R336). -/
def execJsgtK (d : Reg) (imm : Word32) (off : Off) (s : State) : Result := branch64 .sgt d (.imm imm) off s

/-- `JSGT_X` (R337). -/
def execJsgtX (d src : Reg) (off : Off) (s : State) : Result := branch64 .sgt d (.reg src) off s

/-- `JSGE_K` (R338). -/
def execJsgeK (d : Reg) (imm : Word32) (off : Off) (s : State) : Result := branch64 .sge d (.imm imm) off s

/-- `JSGE_X` (R339). -/
def execJsgeX (d src : Reg) (off : Off) (s : State) : Result := branch64 .sge d (.reg src) off s

/-- `JLT_K` (R340). -/
def execJltK (d : Reg) (imm : Word32) (off : Off) (s : State) : Result := branch64 .lt d (.imm imm) off s

/-- `JLT_X` (R341). -/
def execJltX (d src : Reg) (off : Off) (s : State) : Result := branch64 .lt d (.reg src) off s

/-- `JLE_K` (R342). -/
def execJleK (d : Reg) (imm : Word32) (off : Off) (s : State) : Result := branch64 .le d (.imm imm) off s

/-- `JLE_X` (R343). -/
def execJleX (d src : Reg) (off : Off) (s : State) : Result := branch64 .le d (.reg src) off s

/-- `JSLT_K` (R344). -/
def execJsltK (d : Reg) (imm : Word32) (off : Off) (s : State) : Result := branch64 .slt d (.imm imm) off s

/-- `JSLT_X` (R345). -/
def execJsltX (d src : Reg) (off : Off) (s : State) : Result := branch64 .slt d (.reg src) off s

/-- `JSLE_K` (R346). -/
def execJsleK (d : Reg) (imm : Word32) (off : Off) (s : State) : Result := branch64 .sle d (.imm imm) off s

/-- `JSLE_X` (R347). -/
def execJsleX (d src : Reg) (off : Off) (s : State) : Result := branch64 .sle d (.reg src) off s

end Sys2Proof.Machine
end

