-- ==== Sys2Proof/Machine/Jump32.lean ====
section
/-! DEFINITION. JA32 and the conditional jumps of class JMP32 (R325, R348 to R369): 32-bit operands, targets unchecked
until the next fetch (R320). -/

namespace Sys2Proof.Machine

/-- A conditional jump of class JMP32: operands read in the order dst, src; nothing but `pc` is written (R320, R321). -/
def branch32 (c : Cond) (d : Reg) (b : Operand) (off : Off) (s : State) : Result :=
  readReg d s fun x => source32 b s fun y => .next (if c.holds (low32 x) y then s.jumpBy off else s.advance 1)

/-- `JA32` (R325). -/
def execJa32 (imm : Word32) (s : State) : Result := .next (s.jumpFar imm)

/-- `JEQ32_K` (R348). -/
def execJeq32K (d : Reg) (imm : Word32) (off : Off) (s : State) : Result := branch32 .eq d (.imm imm) off s

/-- `JEQ32_X` (R349). -/
def execJeq32X (d src : Reg) (off : Off) (s : State) : Result := branch32 .eq d (.reg src) off s

/-- `JGT32_K` (R350). -/
def execJgt32K (d : Reg) (imm : Word32) (off : Off) (s : State) : Result := branch32 .gt d (.imm imm) off s

/-- `JGT32_X` (R351). -/
def execJgt32X (d src : Reg) (off : Off) (s : State) : Result := branch32 .gt d (.reg src) off s

/-- `JGE32_K` (R352). -/
def execJge32K (d : Reg) (imm : Word32) (off : Off) (s : State) : Result := branch32 .ge d (.imm imm) off s

/-- `JGE32_X` (R353). -/
def execJge32X (d src : Reg) (off : Off) (s : State) : Result := branch32 .ge d (.reg src) off s

/-- `JSET32_K` (R354). -/
def execJset32K (d : Reg) (imm : Word32) (off : Off) (s : State) : Result := branch32 .set d (.imm imm) off s

/-- `JSET32_X` (R355). -/
def execJset32X (d src : Reg) (off : Off) (s : State) : Result := branch32 .set d (.reg src) off s

/-- `JNE32_K` (R356). -/
def execJne32K (d : Reg) (imm : Word32) (off : Off) (s : State) : Result := branch32 .ne d (.imm imm) off s

/-- `JNE32_X` (R357). -/
def execJne32X (d src : Reg) (off : Off) (s : State) : Result := branch32 .ne d (.reg src) off s

/-- `JSGT32_K` (R358). -/
def execJsgt32K (d : Reg) (imm : Word32) (off : Off) (s : State) : Result := branch32 .sgt d (.imm imm) off s

/-- `JSGT32_X` (R359). -/
def execJsgt32X (d src : Reg) (off : Off) (s : State) : Result := branch32 .sgt d (.reg src) off s

/-- `JSGE32_K` (R360). -/
def execJsge32K (d : Reg) (imm : Word32) (off : Off) (s : State) : Result := branch32 .sge d (.imm imm) off s

/-- `JSGE32_X` (R361). -/
def execJsge32X (d src : Reg) (off : Off) (s : State) : Result := branch32 .sge d (.reg src) off s

/-- `JLT32_K` (R362). -/
def execJlt32K (d : Reg) (imm : Word32) (off : Off) (s : State) : Result := branch32 .lt d (.imm imm) off s

/-- `JLT32_X` (R363). -/
def execJlt32X (d src : Reg) (off : Off) (s : State) : Result := branch32 .lt d (.reg src) off s

/-- `JLE32_K` (R364). -/
def execJle32K (d : Reg) (imm : Word32) (off : Off) (s : State) : Result := branch32 .le d (.imm imm) off s

/-- `JLE32_X` (R365). -/
def execJle32X (d src : Reg) (off : Off) (s : State) : Result := branch32 .le d (.reg src) off s

/-- `JSLT32_K` (R366). -/
def execJslt32K (d : Reg) (imm : Word32) (off : Off) (s : State) : Result := branch32 .slt d (.imm imm) off s

/-- `JSLT32_X` (R367). -/
def execJslt32X (d src : Reg) (off : Off) (s : State) : Result := branch32 .slt d (.reg src) off s

/-- `JSLE32_K` (R368). -/
def execJsle32K (d : Reg) (imm : Word32) (off : Off) (s : State) : Result := branch32 .sle d (.imm imm) off s

/-- `JSLE32_X` (R369). -/
def execJsle32X (d src : Reg) (off : Off) (s : State) : Result := branch32 .sle d (.reg src) off s

end Sys2Proof.Machine
end

