-- ==== Sys2Proof/Machine/LoadStore.lean ====
section
/-! DEFINITION. Loads and stores of class LDX, ST and STX with modes MEM and MEMSX (R400 to R416): one access each,
registers read before it, the destination written after it. -/

namespace Sys2Proof.Machine

/-- A load of `n` bytes from `[x[src] + off]` into `x[d]`, extended by `ext` (R400). -/
def load (n : Nat) (ext : Word64 → Word64) (d src : Reg) (off : Off) (s : State) : Result :=
  readReg src s fun base => memRead (effAddr base off) n s fun v s' => finish s' d (ext v) 1

/-- A store of the low `n` bytes of an immediate at `[x[d] + off]` (R400, R401). -/
def storeImmediate (n : Nat) (d : Reg) (off : Off) (imm : Word32) (s : State) : Result :=
  readReg d s fun base => memWrite (effAddr base off) n (storedImm imm) s fun s' => .next (s'.advance 1)

/-- A store of the low `n` bytes of `x[src]` at `[x[d] + off]`, the base read first (R400). -/
def storeRegister (n : Nat) (d src : Reg) (off : Off) (s : State) : Result :=
  readReg d s fun base => readReg src s fun v => memWrite (effAddr base off) n v s fun s' => .next (s'.advance 1)

/-- `LDXB` (R402). -/
def execLdxb (d src : Reg) (off : Off) (s : State) : Result := load 1 (fun v => v) d src off s

/-- `LDXH` (R403). -/
def execLdxh (d src : Reg) (off : Off) (s : State) : Result := load 2 (fun v => v) d src off s

/-- `LDXW` (R404). -/
def execLdxw (d src : Reg) (off : Off) (s : State) : Result := load 4 (fun v => v) d src off s

/-- `LDXDW` (R405). -/
def execLdxdw (d src : Reg) (off : Off) (s : State) : Result := load 8 (fun v => v) d src off s

/-- `LDXSB` (R406). -/
def execLdxsb (d src : Reg) (off : Off) (s : State) : Result :=
  load 1 (fun v => (v.setWidth 8).signExtend 64) d src off s

/-- `LDXSH` (R407). -/
def execLdxsh (d src : Reg) (off : Off) (s : State) : Result :=
  load 2 (fun v => (v.setWidth 16).signExtend 64) d src off s

/-- `LDXSW` (R408). -/
def execLdxsw (d src : Reg) (off : Off) (s : State) : Result :=
  load 4 (fun v => (v.setWidth 32).signExtend 64) d src off s

/-- `STB` (R409). -/
def execStb (d : Reg) (off : Off) (imm : Word32) (s : State) : Result := storeImmediate 1 d off imm s

/-- `STH` (R410). -/
def execSth (d : Reg) (off : Off) (imm : Word32) (s : State) : Result := storeImmediate 2 d off imm s

/-- `STW` (R411). -/
def execStw (d : Reg) (off : Off) (imm : Word32) (s : State) : Result := storeImmediate 4 d off imm s

/-- `STDW` (R412). -/
def execStdw (d : Reg) (off : Off) (imm : Word32) (s : State) : Result := storeImmediate 8 d off imm s

/-- `STXB` (R413). -/
def execStxb (d src : Reg) (off : Off) (s : State) : Result := storeRegister 1 d src off s

/-- `STXH` (R414). -/
def execStxh (d src : Reg) (off : Off) (s : State) : Result := storeRegister 2 d src off s

/-- `STXW` (R415). -/
def execStxw (d src : Reg) (off : Off) (s : State) : Result := storeRegister 4 d src off s

/-- `STXDW` (R416). -/
def execStxdw (d src : Reg) (off : Off) (s : State) : Result := storeRegister 8 d src off s

end Sys2Proof.Machine
end

