-- ==== Sys2Proof/Machine/Packet.lean ====
section
/-! DEFINITION. The deprecated packet loads (R490 to R496): illegal where the packet group is not supported or
`PacketLoad` is not supplied or undefined; else what it answers. -/

namespace Sys2Proof.Machine

/-- The platform supplies packet loads: the group is supported and there is a `PacketLoad` (R490, R501). -/
def State.packetSupplied (s : State) : Bool := s.params.supports .packet && s.packetLoad.isSome

/-- `PacketLoad(kind, n, srcval, imm, regs, mem)`, undefined where none is supplied (R490). -/
def State.packetAnswer (s : State) (mode : PacketMode) (n : Nat) (imm : Word32) : PacketEffect :=
  match s.packetLoad with
  | some f => answerAt f Config.packetLoad ⟨mode, n, imm, s.regs, s.mem⟩
  | none => .undefined

/-- The effect of an answer: new registers and bytes, what `PacketLoad` raises, or an illegal instruction where it is
undefined; `w` is the instruction's canonical word (R490, R491). -/
def packetEffect (answer : PacketEffect) (w : Word64) (s : State) : Result :=
  match answer with
  | .ok regs writes => .next ((s.install regs writes).advance 1)
  | .fault f => raise f s
  | .undefined => raise (.illegalInstruction s.pc w) s

/-- A packet load with mode ABS of `n` bytes (R491 to R493). -/
def packetAbs (n : Nat) (imm : Word32) (w : Word64) (s : State) : Result :=
  if s.packetSupplied then packetEffect (s.packetAnswer .abs n imm) w s else raise (.illegalInstruction s.pc w) s

/-- A packet load with mode IND of `n` bytes: that none is supplied is found before `x[src]` is read, and where
`PacketLoad` is undefined after it, since `x[src]` is one of its arguments (R494 to R496, R511, log 12). -/
def packetInd (n : Nat) (src : Reg) (imm : Word32) (w : Word64) (s : State) : Result :=
  if s.packetSupplied then readReg src s fun v => packetEffect (s.packetAnswer (.ind v) n imm) w s
  else raise (.illegalInstruction s.pc w) s

/-- `LDABSW` (R491). -/
def execLdabsw (imm : Word32) (s : State) : Result := packetAbs 4 imm (Instr.ldabsw imm).word s

/-- `LDABSH` (R492). -/
def execLdabsh (imm : Word32) (s : State) : Result := packetAbs 2 imm (Instr.ldabsh imm).word s

/-- `LDABSB` (R493). -/
def execLdabsb (imm : Word32) (s : State) : Result := packetAbs 1 imm (Instr.ldabsb imm).word s

/-- `LDINDW` (R494). -/
def execLdindw (src : Reg) (imm : Word32) (s : State) : Result := packetInd 4 src imm (Instr.ldindw src imm).word s

/-- `LDINDH` (R495). -/
def execLdindh (src : Reg) (imm : Word32) (s : State) : Result := packetInd 2 src imm (Instr.ldindh src imm).word s

/-- `LDINDB` (R496). -/
def execLdindb (src : Reg) (imm : Word32) (s : State) : Result := packetInd 1 src imm (Instr.ldindb src imm).word s

end Sys2Proof.Machine
end

