-- ==== Sys2Proof/Machine/Dispatch.lean ====
section
/-! DEFINITION. The meaning of every instruction: one arm per constructor, each one call. -/

namespace Sys2Proof.Machine

def exec (i : Instr) (s : State) : Host.Outcome State Fault Refusal :=
  match i with
  | .add32K d imm => Sys2Proof.Machine.execAdd32K d imm s
  | .add32X d src => Sys2Proof.Machine.execAdd32X d src s
  | .sub32K d imm => Sys2Proof.Machine.execSub32K d imm s
  | .sub32X d src => Sys2Proof.Machine.execSub32X d src s
  | .mul32K d imm => Sys2Proof.Machine.execMul32K d imm s
  | .mul32X d src => Sys2Proof.Machine.execMul32X d src s
  | .div32K d imm => Sys2Proof.Machine.execDiv32K d imm s
  | .div32X d src => Sys2Proof.Machine.execDiv32X d src s
  | .sdiv32K d imm => Sys2Proof.Machine.execSdiv32K d imm s
  | .sdiv32X d src => Sys2Proof.Machine.execSdiv32X d src s
  | .or32K d imm => Sys2Proof.Machine.execOr32K d imm s
  | .or32X d src => Sys2Proof.Machine.execOr32X d src s
  | .and32K d imm => Sys2Proof.Machine.execAnd32K d imm s
  | .and32X d src => Sys2Proof.Machine.execAnd32X d src s
  | .lsh32K d imm => Sys2Proof.Machine.execLsh32K d imm s
  | .lsh32X d src => Sys2Proof.Machine.execLsh32X d src s
  | .rsh32K d imm => Sys2Proof.Machine.execRsh32K d imm s
  | .rsh32X d src => Sys2Proof.Machine.execRsh32X d src s
  | .neg32 d => Sys2Proof.Machine.execNeg32 d s
  | .mod32K d imm => Sys2Proof.Machine.execMod32K d imm s
  | .mod32X d src => Sys2Proof.Machine.execMod32X d src s
  | .smod32K d imm => Sys2Proof.Machine.execSmod32K d imm s
  | .smod32X d src => Sys2Proof.Machine.execSmod32X d src s
  | .xor32K d imm => Sys2Proof.Machine.execXor32K d imm s
  | .xor32X d src => Sys2Proof.Machine.execXor32X d src s
  | .mov32K d imm => Sys2Proof.Machine.execMov32K d imm s
  | .mov32X d src => Sys2Proof.Machine.execMov32X d src s
  | .movsx32From8 d src => Sys2Proof.Machine.execMovsx32From8 d src s
  | .movsx32From16 d src => Sys2Proof.Machine.execMovsx32From16 d src s
  | .arsh32K d imm => Sys2Proof.Machine.execArsh32K d imm s
  | .arsh32X d src => Sys2Proof.Machine.execArsh32X d src s
  | .add64K d imm => Sys2Proof.Machine.execAdd64K d imm s
  | .add64X d src => Sys2Proof.Machine.execAdd64X d src s
  | .sub64K d imm => Sys2Proof.Machine.execSub64K d imm s
  | .sub64X d src => Sys2Proof.Machine.execSub64X d src s
  | .mul64K d imm => Sys2Proof.Machine.execMul64K d imm s
  | .mul64X d src => Sys2Proof.Machine.execMul64X d src s
  | .div64K d imm => Sys2Proof.Machine.execDiv64K d imm s
  | .div64X d src => Sys2Proof.Machine.execDiv64X d src s
  | .sdiv64K d imm => Sys2Proof.Machine.execSdiv64K d imm s
  | .sdiv64X d src => Sys2Proof.Machine.execSdiv64X d src s
  | .or64K d imm => Sys2Proof.Machine.execOr64K d imm s
  | .or64X d src => Sys2Proof.Machine.execOr64X d src s
  | .and64K d imm => Sys2Proof.Machine.execAnd64K d imm s
  | .and64X d src => Sys2Proof.Machine.execAnd64X d src s
  | .lsh64K d imm => Sys2Proof.Machine.execLsh64K d imm s
  | .lsh64X d src => Sys2Proof.Machine.execLsh64X d src s
  | .rsh64K d imm => Sys2Proof.Machine.execRsh64K d imm s
  | .rsh64X d src => Sys2Proof.Machine.execRsh64X d src s
  | .neg64 d => Sys2Proof.Machine.execNeg64 d s
  | .mod64K d imm => Sys2Proof.Machine.execMod64K d imm s
  | .mod64X d src => Sys2Proof.Machine.execMod64X d src s
  | .smod64K d imm => Sys2Proof.Machine.execSmod64K d imm s
  | .smod64X d src => Sys2Proof.Machine.execSmod64X d src s
  | .xor64K d imm => Sys2Proof.Machine.execXor64K d imm s
  | .xor64X d src => Sys2Proof.Machine.execXor64X d src s
  | .mov64K d imm => Sys2Proof.Machine.execMov64K d imm s
  | .mov64X d src => Sys2Proof.Machine.execMov64X d src s
  | .movsx64From8 d src => Sys2Proof.Machine.execMovsx64From8 d src s
  | .movsx64From16 d src => Sys2Proof.Machine.execMovsx64From16 d src s
  | .movsx64From32 d src => Sys2Proof.Machine.execMovsx64From32 d src s
  | .arsh64K d imm => Sys2Proof.Machine.execArsh64K d imm s
  | .arsh64X d src => Sys2Proof.Machine.execArsh64X d src s
  | .le16 d => Sys2Proof.Machine.execLe16 d s
  | .le32 d => Sys2Proof.Machine.execLe32 d s
  | .le64 d => Sys2Proof.Machine.execLe64 d s
  | .be16 d => Sys2Proof.Machine.execBe16 d s
  | .be32 d => Sys2Proof.Machine.execBe32 d s
  | .be64 d => Sys2Proof.Machine.execBe64 d s
  | .bswap16 d => Sys2Proof.Machine.execBswap16 d s
  | .bswap32 d => Sys2Proof.Machine.execBswap32 d s
  | .bswap64 d => Sys2Proof.Machine.execBswap64 d s
  | .ja off => Sys2Proof.Machine.execJa off s
  | .ja32 imm => Sys2Proof.Machine.execJa32 imm s
  | .jeqK d imm off => Sys2Proof.Machine.execJeqK d imm off s
  | .jeqX d src off => Sys2Proof.Machine.execJeqX d src off s
  | .jgtK d imm off => Sys2Proof.Machine.execJgtK d imm off s
  | .jgtX d src off => Sys2Proof.Machine.execJgtX d src off s
  | .jgeK d imm off => Sys2Proof.Machine.execJgeK d imm off s
  | .jgeX d src off => Sys2Proof.Machine.execJgeX d src off s
  | .jsetK d imm off => Sys2Proof.Machine.execJsetK d imm off s
  | .jsetX d src off => Sys2Proof.Machine.execJsetX d src off s
  | .jneK d imm off => Sys2Proof.Machine.execJneK d imm off s
  | .jneX d src off => Sys2Proof.Machine.execJneX d src off s
  | .jsgtK d imm off => Sys2Proof.Machine.execJsgtK d imm off s
  | .jsgtX d src off => Sys2Proof.Machine.execJsgtX d src off s
  | .jsgeK d imm off => Sys2Proof.Machine.execJsgeK d imm off s
  | .jsgeX d src off => Sys2Proof.Machine.execJsgeX d src off s
  | .jltK d imm off => Sys2Proof.Machine.execJltK d imm off s
  | .jltX d src off => Sys2Proof.Machine.execJltX d src off s
  | .jleK d imm off => Sys2Proof.Machine.execJleK d imm off s
  | .jleX d src off => Sys2Proof.Machine.execJleX d src off s
  | .jsltK d imm off => Sys2Proof.Machine.execJsltK d imm off s
  | .jsltX d src off => Sys2Proof.Machine.execJsltX d src off s
  | .jsleK d imm off => Sys2Proof.Machine.execJsleK d imm off s
  | .jsleX d src off => Sys2Proof.Machine.execJsleX d src off s
  | .jeq32K d imm off => Sys2Proof.Machine.execJeq32K d imm off s
  | .jeq32X d src off => Sys2Proof.Machine.execJeq32X d src off s
  | .jgt32K d imm off => Sys2Proof.Machine.execJgt32K d imm off s
  | .jgt32X d src off => Sys2Proof.Machine.execJgt32X d src off s
  | .jge32K d imm off => Sys2Proof.Machine.execJge32K d imm off s
  | .jge32X d src off => Sys2Proof.Machine.execJge32X d src off s
  | .jset32K d imm off => Sys2Proof.Machine.execJset32K d imm off s
  | .jset32X d src off => Sys2Proof.Machine.execJset32X d src off s
  | .jne32K d imm off => Sys2Proof.Machine.execJne32K d imm off s
  | .jne32X d src off => Sys2Proof.Machine.execJne32X d src off s
  | .jsgt32K d imm off => Sys2Proof.Machine.execJsgt32K d imm off s
  | .jsgt32X d src off => Sys2Proof.Machine.execJsgt32X d src off s
  | .jsge32K d imm off => Sys2Proof.Machine.execJsge32K d imm off s
  | .jsge32X d src off => Sys2Proof.Machine.execJsge32X d src off s
  | .jlt32K d imm off => Sys2Proof.Machine.execJlt32K d imm off s
  | .jlt32X d src off => Sys2Proof.Machine.execJlt32X d src off s
  | .jle32K d imm off => Sys2Proof.Machine.execJle32K d imm off s
  | .jle32X d src off => Sys2Proof.Machine.execJle32X d src off s
  | .jslt32K d imm off => Sys2Proof.Machine.execJslt32K d imm off s
  | .jslt32X d src off => Sys2Proof.Machine.execJslt32X d src off s
  | .jsle32K d imm off => Sys2Proof.Machine.execJsle32K d imm off s
  | .jsle32X d src off => Sys2Proof.Machine.execJsle32X d src off s
  | .callHelper imm => Sys2Proof.Machine.execCallHelper imm s
  | .callLocal imm => Sys2Proof.Machine.execCallLocal imm s
  | .callBtf imm => Sys2Proof.Machine.execCallBtf imm s
  | .exit => Sys2Proof.Machine.execExit s
  | .ldxb d src off => Sys2Proof.Machine.execLdxb d src off s
  | .ldxh d src off => Sys2Proof.Machine.execLdxh d src off s
  | .ldxw d src off => Sys2Proof.Machine.execLdxw d src off s
  | .ldxdw d src off => Sys2Proof.Machine.execLdxdw d src off s
  | .ldxsb d src off => Sys2Proof.Machine.execLdxsb d src off s
  | .ldxsh d src off => Sys2Proof.Machine.execLdxsh d src off s
  | .ldxsw d src off => Sys2Proof.Machine.execLdxsw d src off s
  | .stb d off imm => Sys2Proof.Machine.execStb d off imm s
  | .sth d off imm => Sys2Proof.Machine.execSth d off imm s
  | .stw d off imm => Sys2Proof.Machine.execStw d off imm s
  | .stdw d off imm => Sys2Proof.Machine.execStdw d off imm s
  | .stxb d src off => Sys2Proof.Machine.execStxb d src off s
  | .stxh d src off => Sys2Proof.Machine.execStxh d src off s
  | .stxw d src off => Sys2Proof.Machine.execStxw d src off s
  | .stxdw d src off => Sys2Proof.Machine.execStxdw d src off s
  | .atomicAdd32 d src off => Sys2Proof.Machine.execAtomicAdd32 d src off s
  | .atomicFetchAdd32 d src off => Sys2Proof.Machine.execAtomicFetchAdd32 d src off s
  | .atomicOr32 d src off => Sys2Proof.Machine.execAtomicOr32 d src off s
  | .atomicFetchOr32 d src off => Sys2Proof.Machine.execAtomicFetchOr32 d src off s
  | .atomicAnd32 d src off => Sys2Proof.Machine.execAtomicAnd32 d src off s
  | .atomicFetchAnd32 d src off => Sys2Proof.Machine.execAtomicFetchAnd32 d src off s
  | .atomicXor32 d src off => Sys2Proof.Machine.execAtomicXor32 d src off s
  | .atomicFetchXor32 d src off => Sys2Proof.Machine.execAtomicFetchXor32 d src off s
  | .atomicXchg32 d src off => Sys2Proof.Machine.execAtomicXchg32 d src off s
  | .atomicCmpxchg32 d src off => Sys2Proof.Machine.execAtomicCmpxchg32 d src off s
  | .atomicAdd64 d src off => Sys2Proof.Machine.execAtomicAdd64 d src off s
  | .atomicFetchAdd64 d src off => Sys2Proof.Machine.execAtomicFetchAdd64 d src off s
  | .atomicOr64 d src off => Sys2Proof.Machine.execAtomicOr64 d src off s
  | .atomicFetchOr64 d src off => Sys2Proof.Machine.execAtomicFetchOr64 d src off s
  | .atomicAnd64 d src off => Sys2Proof.Machine.execAtomicAnd64 d src off s
  | .atomicFetchAnd64 d src off => Sys2Proof.Machine.execAtomicFetchAnd64 d src off s
  | .atomicXor64 d src off => Sys2Proof.Machine.execAtomicXor64 d src off s
  | .atomicFetchXor64 d src off => Sys2Proof.Machine.execAtomicFetchXor64 d src off s
  | .atomicXchg64 d src off => Sys2Proof.Machine.execAtomicXchg64 d src off s
  | .atomicCmpxchg64 d src off => Sys2Proof.Machine.execAtomicCmpxchg64 d src off s
  | .lddw d imm next => Sys2Proof.Machine.execLddw d imm next s
  | .ldMapFd d imm => Sys2Proof.Machine.execLdMapFd d imm s
  | .ldMapValFd d imm next => Sys2Proof.Machine.execLdMapValFd d imm next s
  | .ldVarAddr d imm => Sys2Proof.Machine.execLdVarAddr d imm s
  | .ldCodeAddr d imm => Sys2Proof.Machine.execLdCodeAddr d imm s
  | .ldMapIdx d imm => Sys2Proof.Machine.execLdMapIdx d imm s
  | .ldMapValIdx d imm next => Sys2Proof.Machine.execLdMapValIdx d imm next s
  | .ldabsw imm => Sys2Proof.Machine.execLdabsw imm s
  | .ldabsh imm => Sys2Proof.Machine.execLdabsh imm s
  | .ldabsb imm => Sys2Proof.Machine.execLdabsb imm s
  | .ldindw src imm => Sys2Proof.Machine.execLdindw src imm s
  | .ldindh src imm => Sys2Proof.Machine.execLdindh src imm s
  | .ldindb src imm => Sys2Proof.Machine.execLdindb src imm s

end Sys2Proof.Machine
end

