-- ==== Sys2Proof/Machine/Fetch.lean ====
section
/-! DEFINITION. Instruction fetch: the decode algorithm of R114 on the program text, with its checks in the order of
R511, and a program that holds one given instruction. -/

namespace Sys2Proof.Machine

/-- Whether slot `i` is the second slot of a wide instruction: slot `i-1` is a first slot with opcode 0x18, decoding
linearly from slot 0 (R114, R322). -/
def isSecondSlot (e : Endian) (prog : List Slot) (i : Nat) : Bool :=
  match i with
  | 0 => false
  | j + 1 =>
    match prog[j]? with
    | some slot => (slot.fields e).opcode == 0x18 && !isSecondSlot e prog j
    | none => false

/-- A wide instruction completed from the slot after `pc`, or the fault of R114. -/
def fetchSecond (s : State) (i : Instr) : Except Fault Instr :=
  match s.prog[s.pc.toNat + 1]? with
  | none => .error (.pcOutOfRange (s.pc + 1))
  | some second =>
    match completeWide i (second.fields s.params.endian) with
    | .error _ => .error (.illegalInstruction s.pc (second.fields s.params.endian).word)
    | .ok j => .ok j

/-- The instruction at `pc`, or the fault that fetching or decoding it raises (R114, R501 to R503). -/
def fetch (s : State) : Except Fault Instr :=
  if s.pc < 0 ∨ (s.prog.length : Int) ≤ s.pc then .error (.pcOutOfRange s.pc)
  else if isSecondSlot s.params.endian s.prog s.pc.toNat then .error (.jumpIntoWide s.pc)
  else
    match s.prog[s.pc.toNat]? with
    | none => .error (.pcOutOfRange s.pc)
    | some first =>
      let illegal := Fault.illegalInstruction s.pc (first.fields s.params.endian).word
      match decodeFields (first.fields s.params.endian) with
      | .error _ => .error illegal
      | .ok i =>
        if !s.params.supports i.group then .error illegal
        else if s.params.refusesR10 i then .error illegal
        else if i.isWide then fetchSecond s i
        else .ok i

/-- An all-zero slot, which is no instruction (R127). -/
def zeroSlot : Slot := ⟨0, 0, 0, 0, 0, 0, 0, 0⟩

/-- A program text whose slot `at_` starts the instruction with the given bits, in the host's layout; the slots before
it are zero, so that it is a first slot. -/
def programWith (e : Endian) (at_ nbits w : Nat) : List Slot := List.replicate at_ zeroSlot ++ tableSlots e nbits w

end Sys2Proof.Machine
end

