-- ==== Sys2Proof/Machine/Step.lean ====
section
/-! DEFINITION. The step function (R552), and the state in which the next step fetches a given instruction. -/

namespace Sys2Proof.Machine

/-- One step (R552): a running machine fetches, decodes and executes one instruction; a fault is a next state whose
status is faulted (R500, log 5). A machine that is not running has no step: the answer is the fault it stopped with,
or that the run has ended (log 6). -/
def step (s : State) : Host.Outcome State Fault Refusal :=
  match s.status with
  | .running =>
    match fetch s with
    | .error f => raise f s
    | .ok i => exec i s
  | .faulted f => .fault f
  | .exited v => .fault (.runEnded v)

/-- The running state whose program holds the given instruction at `pc` (log 4, 20): it stands for the platform's
loading of a program. A negative `pc` becomes 0. -/
def State.withFetchWord (s : State) (nbits w : Nat) : State :=
  { s with
    status := .running
    pc := if s.pc < 0 then 0 else s.pc
    prog := programWith s.params.endian s.pc.toNat nbits w }

end Sys2Proof.Machine
end

