-- ==== Sys2Proof/WellFormed.lean ====
section
/-! DEFINITION. Well-formedness: the instructions that decoding accepts under given parameters (R34, R114, R128), and
the parameters and the program text that a launch may give (R6, R10, R68, R79, R551). Operands need no check: their
types hold exactly the values the encoding admits. -/

namespace Sys2Proof

/-- An instruction that decoding accepts: its group is supported and it does not write a read-only R10 (R114). -/
def wellFormed (p : Params) (i : Instr) : Bool := p.supports i.group && !p.refusesR10 i

/-- One region ends by the base of the other, so they have no byte in common (R68). The spec does not say whether a region
of length 0 may lie strictly inside another one, with which it shares no byte: here it may not (DESIGN CHOICE, log 27). -/
def Region.disjoint (a b : Region) : Bool :=
  decide (a.base + a.length ≤ b.base) || decide (b.base + b.length ≤ a.base)

/-- No two regions of a list overlap (R68). -/
def regionsDisjoint : List Region → Bool
  | [] => true
  | a :: rest => rest.all a.disjoint && regionsDisjoint rest

/-- The groups of a set are closed under "includes" (R6). -/
def groupsClosed (gs : List Group) : Bool :=
  [Group.base32, .base64, .atomic32, .atomic64, .divmul32, .divmul64, .packet].all fun h =>
    !(gs.any fun g => g.includes h) || gs.contains h

/-- The address is the base of a shared region of the list (R79, R478). -/
def isSharedBase (regions : List Region) (addr : Word64) : Bool :=
  regions.any fun r => decide (r.base = addr.toNat) && r.shared

/-- The parameters that a launch may give: base32 supported, the groups closed under "includes", the regions disjoint
and within 2^64, and every map value and platform variable a shared region that starts at the address which `map_val`
or `var_addr` gives (R10, R79, R478, R551). -/
def Params.wellFormed (p : Params) : Bool :=
  p.groups.contains .base32 && groupsClosed p.groups && regionsDisjoint p.regions
    && (p.regions.all fun r => decide (r.base + r.length ≤ 2 ^ 64))
    && (p.mapVal.all fun e => isSharedBase p.regions e.2) && p.varAddr.all fun e => isSharedBase p.regions e.2

/-- The program text that a launch may give: one slot at least (R551). -/
def launchProg (prog : List Slot) : Bool := decide (1 ≤ prog.length)

end Sys2Proof
end

