-- ==== Sys2Proof/Safety.lean ====
section
/-! DEFINITION. What counts as a safe run, the invariants of the machine, and the terms in which the claims say what an
instruction does: the registers it reads, the value memory holds, the state it completes in or the fault it raises. -/

namespace Sys2Proof.Machine

/-- A state that is not faulted (R43, R500: a faulted run is never a successful one). -/
def State.safe (s : State) : Bool :=
  match s.status with
  | .faulted _ => false
  | _ => true

/-- The state reached by `k` steps, where each answers a next state. -/
def reaches (k : Nat) (s t : State) : Prop :=
  match k with
  | 0 => s = t
  | k + 1 => ∃ u, step s = .next u ∧ reaches k u t

/-- A run that stays safe for `k` steps: every state it reaches by then is safe. -/
def safeFor (k : Nat) (s : State) : Prop := ∀ j ≤ k, ∀ t, reaches j s t → t.safe = true

/-! ## Invariants -/

/-- Whether a frame holds saved registers exactly when the call convention saves them (R38, R386). -/
def Frame.fits (c : CallConv) (f : Frame) : Bool :=
  match c with
  | .pcOnly => f.saved.isNone
  | .linuxAbi => f.saved.isSome

/-- The call stack is one that calls under these parameters make: each frame holds what the convention saves, returns
to no negative slot and to no second slot of a wide instruction, and the depth is within `MaxCallDepth` (R384, R386). -/
def State.stackOk (s : State) : Prop :=
  (∀ f ∈ s.callStack, f.fits s.params.localCallConv = true ∧ 0 ≤ f.ret ∧
    isSecondSlot s.params.endian s.prog f.ret.toNat = false) ∧
  ∀ n, s.params.maxCallDepth = some n → s.callStack.length ≤ n

/-- What must hold before the first step (R45, R551): a program of one slot at least, parameters that a launch may give,
a `PacketLoad` if the packet group is supported (R490), initial bytes in the regions only, and the launch values of `pc`,
the call stack, the status and the event history. Registers may be anything. -/
def State.launchOk (s : State) : Prop :=
  launchProg s.prog = true ∧ s.params.wellFormed = true ∧
  (s.params.supports .packet = true → s.packetLoad.isSome = true) ∧
  s.mem.wf ∧ (∀ c ∈ s.mem, (s.params.regions.any fun r => regionHolds r c.1 1) = true) ∧
  s.pc = 0 ∧ s.callStack = [] ∧ s.status = .running ∧ s.events = []

/-! ## What an instruction does -/

/-- The instruction ends in this fault: nothing changes but `Status` (R500). -/
def raises (i : Instr) (s : State) (f : Fault) : Prop := exec i s = .next { s with status := .faulted f }

/-- The instruction completes by writing one register, `x[d] <- v mod 2^64`, and going on `len` slots; everything else
is unchanged (R37). -/
def writesOnly (i : Instr) (s : State) (d : Reg) (v : Nat) (len : Int) : Prop :=
  exec i s = .next { s with regs := s.regs.set d (.written (BitVec.ofNat 64 v)), pc := s.pc + len }

/-- The instruction completes by changing only `pc`, to the slot `dist` after the next one where `taken`, else to the
next one (R320). -/
def jumps (i : Instr) (s : State) (taken : Prop) (dist : Int) : Prop :=
  (taken → exec i s = .next { s with pc := s.pc + 1 + dist }) ∧ (¬ taken → exec i s = .next { s with pc := s.pc + 1 })

/-- Where byte `k` of an `n`-byte value (least significant first) lies from its address, in host byte order (R62). -/
def bytePlace (e : Endian) (n k : Nat) : Nat :=
  match e with
  | .little => k
  | .big => n - 1 - k

/-- Memory holds the `n`-byte value `v` at address `a` in host byte order, every byte written (R62, R63). -/
def State.holds (s : State) (a n : Nat) (v : Nat) : Prop :=
  v < 2 ^ (8 * n) ∧
  ∀ k < n, s.mem.get (a + bytePlace s.params.endian n k) = some (BitVec.ofNat 8 (v / 2 ^ (8 * k)))

/-- A read of the region sees the `n`-byte value `v` at address `a` in host byte order: stored bytes for a private region,
the oracle's for a shared one (R62, R72). -/
def State.sees (s : State) (r : Region) (a n : Nat) (v : Nat) : Prop :=
  v < 2 ^ (8 * n) ∧
  ∀ k < n, s.byteAt r (a + bytePlace s.params.endian n k) = some (BitVec.ofNat 8 (v / 2 ^ (8 * k)))

/-- The event history after one more access to the region (R72). -/
def State.noted (s : State) (r : Region) (ev : Event) : List Event := if r.shared then ev :: s.events else s.events

/-- Every byte of memory outside the `n` bytes at `a` reads as before. -/
def sameOutside (s t : State) (a n : Nat) : Prop := ∀ b, b < a ∨ a + n ≤ b → t.mem.get b = s.mem.get b

/-- The low `n` bytes of a value in reversed order (R7). -/
def reversedBytes (n v : Nat) : Nat := ((List.range n).map fun k => v / 2 ^ (8 * k) % 256 * 2 ^ (8 * (n - 1 - k))).sum

/-- Nothing but memory, registers, `pc` and the event history differs. -/
def sameButData (s t : State) : Prop :=
  t.callStack = s.callStack ∧ t.status = s.status ∧ t.prog = s.prog ∧ t.params = s.params ∧
  t.helper = s.helper ∧ t.packetLoad = s.packetLoad ∧ t.draws = s.draws

/-- The instruction completes by storing the `n`-byte value `v` at `addr`, in a region `r`, and going on to the next
one: no register changes, no byte outside the `n` at `addr` (R63). -/
def storesOnly (i : Instr) (s : State) (r : Region) (addr : Word64) (n v : Nat) : Prop :=
  ∃ t, exec i s = .next t ∧ t.holds addr.toNat n v ∧ sameOutside s t addr.toNat n ∧ t.regs = s.regs ∧
    t.pc = s.pc + 1 ∧ t.events = s.noted r (.write addr n (BitVec.ofNat 64 v)) ∧ sameButData s t

/-- The instruction completes as one atomic operation that found the `n`-byte value `old` at `addr`, in a region `r`, and
stored `new` there, or nothing; the registers become `regs` (R430). -/
def updatesAtomically (i : Instr) (s : State) (r : Region) (addr : Word64) (n old : Nat) (new : Option Nat)
    (regs : Regs) : Prop :=
  ∃ t, exec i s = .next t ∧ (∀ v, new = some v → t.holds addr.toNat n v ∧ sameOutside s t addr.toNat n) ∧
    (new = none → t.mem = s.mem) ∧ t.regs = regs ∧ t.pc = s.pc + 1 ∧
    t.events = s.noted r (.atomic addr n (BitVec.ofNat 64 old) (new.map (BitVec.ofNat 64))) ∧ sameButData s t

/-- A function of the platform gives the answer `y` at `x`: the first listed one for `x`; for an `x` that is not listed its
one other answer or, if it has none, the free value (log 9, 11). -/
def givesAt {α β : Type} [DecidableEq α] (f : PlatformFn α β) (free : α → β) (x : α) (y : β) : Prop :=
  tableLookup f.listed x = some y ∨
  (tableLookup f.listed x = none ∧ (f.otherwise = some y ∨ (f.otherwise = none ∧ free x = y)))

/-- The instruction completes by taking the registers and bytes that the platform answered and going on to the next one,
with `draws` oracle draws made: a byte of an admitted region is what the last write to it says, every other byte is
unchanged (R385, R490; log 10). -/
def takesAnswer (i : Instr) (s : State) (regs : Regs) (writes : List (Nat × Option Byte)) (draws : Nat) : Prop :=
  ∃ mem : Memory, exec i s = .next { s with regs := regs, mem := mem, pc := s.pc + 1, draws := draws } ∧
    ∀ a, mem.get a =
      match if s.params.regions.any (regionHolds · a 1) then writes.reverse.find? (·.1 = a) else none with
      | some w => w.2
      | none => s.mem.get a

/-- The registers that an instruction reads whatever the state, in the order it reads them (R504). EXIT reads R0 only
when the call stack is empty, and an IND packet load reads `src_reg` only when packet loads are supplied: neither is
listed. -/
def readsRegs (i : Instr) : List Reg :=
  match i with
  | .add32K d _ | .sub32K d _ | .mul32K d _ | .div32K d _ | .sdiv32K d _ | .or32K d _ | .and32K d _
  | .lsh32K d _ | .rsh32K d _ | .neg32 d | .mod32K d _ | .smod32K d _ | .xor32K d _ | .arsh32K d _
  | .add64K d _ | .sub64K d _ | .mul64K d _ | .div64K d _ | .sdiv64K d _ | .or64K d _ | .and64K d _
  | .lsh64K d _ | .rsh64K d _ | .neg64 d | .mod64K d _ | .smod64K d _ | .xor64K d _ | .arsh64K d _ | .le16 d
  | .le32 d | .le64 d | .be16 d | .be32 d | .be64 d | .bswap16 d | .bswap32 d | .bswap64 d | .jeqK d _ _
  | .jgtK d _ _ | .jgeK d _ _ | .jsetK d _ _ | .jneK d _ _ | .jsgtK d _ _ | .jsgeK d _ _ | .jltK d _ _
  | .jleK d _ _ | .jsltK d _ _ | .jsleK d _ _ | .jeq32K d _ _ | .jgt32K d _ _ | .jge32K d _ _ | .jset32K d _ _
  | .jne32K d _ _ | .jsgt32K d _ _ | .jsge32K d _ _ | .jlt32K d _ _ | .jle32K d _ _ | .jslt32K d _ _
  | .jsle32K d _ _ | .stb d _ _ | .sth d _ _ | .stw d _ _ | .stdw d _ _ => [d]
  | .mov32X _ src | .movsx32From8 _ src | .movsx32From16 _ src | .mov64X _ src | .movsx64From8 _ src
  | .movsx64From16 _ src | .movsx64From32 _ src | .ldxb _ src _ | .ldxh _ src _ | .ldxw _ src _
  | .ldxdw _ src _ | .ldxsb _ src _ | .ldxsh _ src _ | .ldxsw _ src _ => [src]
  | .add32X d src | .sub32X d src | .mul32X d src | .div32X d src | .sdiv32X d src | .or32X d src
  | .and32X d src | .lsh32X d src | .rsh32X d src | .mod32X d src | .smod32X d src | .xor32X d src
  | .arsh32X d src | .add64X d src | .sub64X d src | .mul64X d src | .div64X d src | .sdiv64X d src
  | .or64X d src | .and64X d src | .lsh64X d src | .rsh64X d src | .mod64X d src | .smod64X d src
  | .xor64X d src | .arsh64X d src | .jeqX d src _ | .jgtX d src _ | .jgeX d src _ | .jsetX d src _
  | .jneX d src _ | .jsgtX d src _ | .jsgeX d src _ | .jltX d src _ | .jleX d src _ | .jsltX d src _
  | .jsleX d src _ | .jeq32X d src _ | .jgt32X d src _ | .jge32X d src _ | .jset32X d src _ | .jne32X d src _
  | .jsgt32X d src _ | .jsge32X d src _ | .jlt32X d src _ | .jle32X d src _ | .jslt32X d src _
  | .jsle32X d src _ | .stxb d src _ | .stxh d src _ | .stxw d src _ | .stxdw d src _ | .atomicAdd32 d src _
  | .atomicFetchAdd32 d src _ | .atomicOr32 d src _ | .atomicFetchOr32 d src _ | .atomicAnd32 d src _
  | .atomicFetchAnd32 d src _ | .atomicXor32 d src _ | .atomicFetchXor32 d src _ | .atomicXchg32 d src _
  | .atomicAdd64 d src _ | .atomicFetchAdd64 d src _ | .atomicOr64 d src _ | .atomicFetchOr64 d src _
  | .atomicAnd64 d src _ | .atomicFetchAnd64 d src _ | .atomicXor64 d src _ | .atomicFetchXor64 d src _
  | .atomicXchg64 d src _ => [d, src]
  | .atomicCmpxchg32 d src _ | .atomicCmpxchg64 d src _ => [d, src, 0]
  | .mov32K .. | .mov64K .. | .ja .. | .ja32 .. | .callHelper .. | .callLocal .. | .callBtf .. | .exit
  | .lddw .. | .ldMapFd .. | .ldMapValFd .. | .ldVarAddr .. | .ldCodeAddr .. | .ldMapIdx .. | .ldMapValIdx ..
  | .ldabsw .. | .ldabsh .. | .ldabsb .. | .ldindw .. | .ldindh .. | .ldindb .. => []

end Sys2Proof.Machine
end

