-- ==== Sys2Proof/Certificates/Slice0/Obligations.lean ====
section
/-! DEFINITION. The statements for the provers. Each docstring names the rules of the spec it rests on, or says which
choice of the model it states. -/

open Sys2Proof Sys2Proof.Machine

/-! ## Encoding and decoding -/

/-- Decoding an encoded instruction gives it back, with every operand at every value, on either host, whatever slots
follow (R101, R104, R114). -/
def Obligations.DecodeEncodeRoundTrip : Prop :=
  ∀ (e : Endian) (i : Instr) (rest : List Slot), decode e (encode e i ++ rest) = .ok (i, rest)

/-- Decoding is strict: the only slots that decode to an instruction are the ones that encode it, so every unused field
is zero (R113, R121). -/
def Obligations.DecodeIsStrict : Prop :=
  ∀ (e : Endian) (slots rest : List Slot) (i : Instr), decode e slots = .ok (i, rest) → slots = encode e i ++ rest

/-- On a little-endian host the canonical word of a slot is its eight bytes read as one little-endian number; on a
big-endian host `opcode` is still byte 0, the register halves change places and the other fields are byte-reversed
(R101). -/
def Obligations.CanonicalWordOfSlot : Prop :=
  ∀ a b c d e f g h : Byte,
    ((⟨a, b, c, d, e, f, g, h⟩ : Slot).fields .little).word = h ++ g ++ f ++ e ++ d ++ c ++ b ++ a ∧
    ((⟨a, b, c, d, e, f, g, h⟩ : Slot).fields .big).word =
      e ++ f ++ g ++ h ++ c ++ d ++ (b.extractLsb' 0 4 ++ b.extractLsb' 4 4) ++ a

/-- A few words written out from the spec's encodings decode to the instructions they stand for, on both hosts (R101,
R104, R251, R345, R382, R384, R412, R451, R471). -/
def Obligations.KnownWordsDecode : Prop :=
  decode .little [⟨0x07, 0x01, 0, 0, 0x44, 0x33, 0x22, 0x11⟩] = .ok (.add64K 1 0x11223344, []) ∧
  decode .big [⟨0x07, 0x10, 0, 0, 0x11, 0x22, 0x33, 0x44⟩] = .ok (.add64K 1 0x11223344, []) ∧
  decode .little [⟨0xcd, 0x21, 0x05, 0, 0, 0, 0, 0⟩] = .ok (.jsltX 1 2 5, []) ∧
  decode .big [⟨0x7a, 0x20, 0x00, 0x10, 0xff, 0xff, 0xff, 0xff⟩] = .ok (.stdw 2 16 0xffffffff, []) ∧
  decode .little [⟨0xdb, 0x76, 0, 0, 0xf1, 0, 0, 0⟩] = .ok (.atomicCmpxchg64 6 7 0, []) ∧
  decode .little [⟨0x85, 0x10, 0, 0, 0xfc, 0xff, 0xff, 0xff⟩] = .ok (.callLocal 0xfffffffc, []) ∧
  decode .little [⟨0x95, 0, 0, 0, 0, 0, 0, 0⟩] = .ok (.exit, []) ∧
  decode .little [⟨0x18, 0x01, 0, 0, 0x88, 0x77, 0x66, 0x55⟩, ⟨0, 0, 0, 0, 0x44, 0x33, 0x22, 0x11⟩] =
    .ok (.lddw 1 0x55667788 0x11223344, [])

/-! ## Launch -/

/-- What launch fixes: `pc` is 0, the call stack is empty, the status is running (R45, R550). -/
def Obligations.LaunchState : Prop :=
  State.reset.pc = 0 ∧ State.reset.callStack = [] ∧ State.reset.status = .running

/-- At reset the parameters are the defaults of R10. THE MODEL'S CHOICE: that reset takes these defaults (log 3), that
`SdivOverflow` is four values (log 23), that "undefined everywhere" is a list without helpers (log 9), no `PacketLoad`
(log 11) and empty tables (log 13). -/
def Obligations.LaunchDefaults : Prop :=
  (∀ g : Group, State.reset.params.supports g = true ↔ g ≠ .packet) ∧
  State.reset.params.strictAlign = true ∧ State.reset.params.localCallConv = .pcOnly ∧
  State.reset.params.frameStride = 512 ∧ State.reset.params.maxCallDepth = none ∧
  State.reset.params.r10ReadOnly = true ∧
  State.reset.params.sdivOverflow = ⟨BitVec.intMin 32, 0, BitVec.intMin 64, 0⟩ ∧
  State.reset.helper = [] ∧ State.reset.packetLoad = none ∧
  State.reset.params.mapByFd = [] ∧ State.reset.params.mapByIdx = [] ∧ State.reset.params.mapVal = [] ∧
  State.reset.params.varAddr = [] ∧ State.reset.params.codeAddr = []

/-- THE MODEL'S CHOICE (log 2, log 3, log 4, log 8, log 26): at reset every register is written 0, the host is
little-endian, no program is loaded (so that it is no launch yet), no byte of memory is written, the event history is
empty and no draw has been made. -/
def Obligations.LaunchChoices : Prop :=
  (∀ r : Reg, State.reset.regs[r] = .written 0) ∧ State.reset.params.endian = .little ∧ State.reset.prog = [] ∧
  ¬ State.reset.launchOk ∧ State.reset.events = [] ∧ State.reset.draws = 0 ∧ ∀ a, State.reset.mem.get a = none

/-- The reset state meets the invariants that every step keeps (R38, R386) and the demands on the parameters (R551). The
parameters and the memory that it has at reset are THE MODEL'S CHOICE (log 3), as is the list form of memory (log 16). -/
def Obligations.LaunchMeetsInvariants : Prop :=
  State.reset.mem.wf ∧ State.reset.stackOk ∧ State.reset.params.wellFormed = true

/-- What every launch state has: a first slot, which is no second slot of a wide instruction; base32; regions that no two
share a byte of and that end by 2^64; every map value and platform variable a shared region that starts where `map_val` or
`var_addr` says; and the invariants that every step keeps (R6, R45, R68, R79, R478, R551). The reset state with any
instruction placed in it is one. THE MODEL'S CHOICE: how a program is placed (log 4, log 20), and that a region of length
0 lies strictly inside no other (log 27). -/
def Obligations.LaunchStates : Prop :=
  (∀ s : State, s.launchOk →
    (∃ first, s.prog[s.pc.toNat]? = some first) ∧ isSecondSlot s.params.endian s.prog s.pc.toNat = false ∧
    s.params.supports .base32 = true ∧ s.mem.wf ∧ s.stackOk ∧
    s.params.regions.Pairwise (fun r q => r.base + r.length ≤ q.base ∨ q.base + q.length ≤ r.base) ∧
    (∀ r ∈ s.params.regions, r.base + r.length ≤ 2 ^ 64) ∧
    (∀ m a, tableLookup s.params.mapVal m = some a → ∃ r ∈ s.params.regions, r.base = a.toNat ∧ r.shared = true) ∧
    ∀ i a, tableLookup s.params.varAddr i = some a → ∃ r ∈ s.params.regions, r.base = a.toNat ∧ r.shared = true) ∧
  ∀ nbits w, (State.reset.withFetchWord nbits w).launchOk

/-! ## Fetch and step -/

/-- Where the slots at `pc` decode to an instruction that is well-formed under the parameters, and `pc` is a first slot,
a step executes exactly that instruction (R114, R552). -/
def Obligations.StepRunsDecoded : Prop :=
  ∀ (s : State) (i : Instr) (rest : List Slot), s.status = .running → 0 ≤ s.pc → s.pc < s.prog.length →
    isSecondSlot s.params.endian s.prog s.pc.toNat = false →
    decode s.params.endian (s.prog.drop s.pc.toNat) = .ok (i, rest) → wellFormed s.params i = true → step s = exec i s

/-- A fetch outside the program raises `PcOutOfRange(pc)`; so does, with `pc + 1`, a wide instruction that starts in the
last slot (R114, R502). -/
def Obligations.FetchOutsideProgram : Prop :=
  ∀ s : State, s.status = .running →
    ((s.pc < 0 ∨ (s.prog.length : Int) ≤ s.pc) →
      step s = .next { s with status := .faulted (.pcOutOfRange s.pc) }) ∧
    ∀ (first : Slot) (i : Instr), 0 ≤ s.pc → s.pc + 1 = s.prog.length → s.prog[s.pc.toNat]? = some first →
      isSecondSlot s.params.endian s.prog s.pc.toNat = false →
      decodeFields (first.fields s.params.endian) = .ok i → wellFormed s.params i = true → i.isWide = true →
      step s = .next { s with status := .faulted (.pcOutOfRange (s.pc + 1)) }

/-- Which slots are second slots, by linear decoding from slot 0: slot 0 is none, and the next slot is one exactly when
this one is a first slot with opcode 0x18 (R114, R322). -/
def Obligations.SecondSlots : Prop :=
  ∀ (e : Endian) (prog : List Slot), isSecondSlot e prog 0 = false ∧
    ∀ j, isSecondSlot e prog (j + 1) = true ↔
      isSecondSlot e prog j = false ∧ ∃ slot, prog[j]? = some slot ∧ (slot.fields e).opcode = 0x18

/-- A fetch at the second slot of a wide instruction raises `JumpIntoWide(pc)`, however it was reached (R503). -/
def Obligations.FetchAtSecondSlot : Prop :=
  ∀ s : State, s.status = .running → 0 ≤ s.pc → s.pc < s.prog.length →
    isSecondSlot s.params.endian s.prog s.pc.toNat = true →
    step s = .next { s with status := .faulted (.jumpIntoWide s.pc) }

/-- A first slot that is no row, whose instruction's group is not supported, or that writes a read-only R10 is illegal,
with its canonical word; a wide instruction with a bad second slot is illegal with the second slot's word (R34, R114,
R128, R501). -/
def Obligations.IllegalInstructions : Prop :=
  ∀ (s : State) (first : Slot), s.status = .running → 0 ≤ s.pc → s.prog[s.pc.toNat]? = some first →
    isSecondSlot s.params.endian s.prog s.pc.toNat = false →
    ((∀ i, decodeFields (first.fields s.params.endian) = .ok i →
        s.params.supports i.group = false ∨ (s.params.r10ReadOnly = true ∧ i.writesReg = some 10)) →
      step s = .next
        { s with status := .faulted (.illegalInstruction s.pc (first.fields s.params.endian).word) }) ∧
    ∀ (i : Instr) (second : Slot), decodeFields (first.fields s.params.endian) = .ok i →
      wellFormed s.params i = true → i.isWide = true → s.prog[s.pc.toNat + 1]? = some second →
      ((second.fields s.params.endian).opcode ≠ 0 ∨ (second.fields s.params.endian).dst ≠ 0 ∨
        (second.fields s.params.endian).src ≠ 0 ∨ (second.fields s.params.endian).offset ≠ 0 ∨
        (i.usesNext = false ∧ (second.fields s.params.endian).imm ≠ 0)) →
      step s = .next
        { s with status := .faulted (.illegalInstruction s.pc (second.fields s.params.endian).word) }

/-- A machine that is not running has no step; a running one always has a next state (R43, R552). That a step after the end
of the run answers `runEnded`, and one after a fault that fault, is THE MODEL'S CHOICE (log 5, log 6). -/
def Obligations.StepsExactlyWhileRunning : Prop :=
  ∀ s : State, (s.status = .running → ∃ t, step s = .next t) ∧
    (∀ f, s.status = .faulted f → step s = .fault f) ∧
    ∀ v, s.status = .exited v → step s = .fault (.runEnded v)

/-! ## Rules of the whole machine -/

/-- A step that faults changes nothing but `Status` (R500, R512). -/
def Obligations.FaultChangesOnlyStatus : Prop :=
  ∀ (s t : State) (f : Fault), step s = .next t → t.status = .faulted f → t = { s with status := .faulted f }

/-- The program text and the parameters of R44 never change, and so no step changes what a fetch at any slot returns (R10,
R44, R76; that the parameters are held in the state is THE MODEL'S CHOICE, log 1, 9, 11). -/
def Obligations.ProgramIsImmutable : Prop :=
  ∀ s t : State, step s = .next t →
    t.prog = s.prog ∧ t.params = s.params ∧ t.helper = s.helper ∧ t.packetLoad = s.packetLoad ∧
    ∀ pc, fetch { t with pc := pc } = fetch { s with pc := pc }

/-- `Helper` and `PacketLoad` are fixed for the run: a pair (kind, id) at which `Helper` is defined never becomes undefined
nor the other way round, so a loop that calls a helper need not end, and equal arguments give equal answers, the oracle
being one of them (R385, R490, R551, R556; what the oracle is, is THE MODEL'S CHOICE, log 26). -/
def Obligations.PlatformFunctionsAreFixed : Prop :=
  ∀ s t : State, step s = .next t →
    (∀ kind id, t.helperAnswer kind id = none ↔ s.helperAnswer kind id = none) ∧
    (t.helperInput = s.helperInput → ∀ kind id, t.helperAnswer kind id = s.helperAnswer kind id) ∧
    (t.regs = s.regs → t.mem = s.mem → ∀ mode n imm, t.packetAnswer mode n imm = s.packetAnswer mode n imm)

/-- Every step keeps memory in its canonical form: rising addresses below 2^64 (R42; the list form is the model's, log
16). -/
def Obligations.MemoryStaysCanonical : Prop := ∀ s t : State, s.mem.wf → step s = .next t → t.mem.wf

/-- Every step keeps the call stack well-formed: the frames fit the convention, no return position is a second slot,
and the depth stays within `MaxCallDepth` (R38, R384, R386). -/
def Obligations.CallStackStaysWellFormed : Prop := ∀ s t : State, s.stackOk → step s = .next t → t.stackOk

/-- Only CALL_LOCAL and EXIT change the call stack (R38). -/
def Obligations.CallStackChangedOnlyByCallAndExit : Prop :=
  ∀ (s t : State) (i : Instr), exec i s = .next t → t.callStack ≠ s.callStack → i = .exit ∨ ∃ imm, i = .callLocal imm

/-- The run ends only by EXIT with an empty call stack, with the value of R0 (R43, R387). -/
def Obligations.OnlyExitEndsTheRun : Prop :=
  ∀ (s t : State) (v : Word64), step s = .next t → t.status = .exited v →
    fetch s = .ok .exit ∧ s.callStack = [] ∧ s.regs[(0 : Reg)] = .written v ∧ t = { s with status := .exited v }

/-- With `R10ReadOnly`, calls that change no register, and a `Helper` and a `PacketLoad` that leave R10 as it is, no step
changes R10 (R34; that they may change it is log 18). -/
def Obligations.ReadOnlyR10IsKept : Prop :=
  ∀ s t : State, s.params.r10ReadOnly = true → s.params.localCallConv = .pcOnly → s.stackOk →
    (∀ kind id regs writes, s.helperAnswer kind id = some (.ok regs writes) → regs[(10 : Reg)] = s.regs[(10 : Reg)]) →
    (∀ mode n imm regs writes, s.packetAnswer mode n imm = .ok regs writes → regs[(10 : Reg)] = s.regs[(10 : Reg)]) →
    step s = .next t → t.regs[(10 : Reg)] = s.regs[(10 : Reg)]

/-- Without a shared region nothing is recorded, so no step makes a later read depend on the oracle (R72, R553; what the
event history records is the model's, log 8). -/
def Obligations.PrivateRunsRecordNothing : Prop :=
  ∀ s t : State, (∀ r ∈ s.params.regions, r.shared = false) → step s = .next t → t.events = s.events

/-- The first unwritten register among those an instruction reads, in the order it reads them, is the fault it reports
(R33, R504, R511). -/
def Obligations.FirstUnwrittenRegisterFaults : Prop :=
  ∀ (i : Instr) (s : State) (r : Reg), (readsRegs i).find? (fun q => s.regs[q] = .unwritten) = some r →
    raises i s (.uninitRegister r)

/-! ## Arithmetic -/

/-- ADD, SUB, MUL, OR, AND and XOR of class ALU, with K and X: modulo 2^32, zero-extended (R200, R201, R206). -/
def Obligations.Alu32Results : Prop :=
  ∀ (s : State) (d : Reg) (x : Word64), s.regs[d] = .written x →
    (∀ imm : Word32,
      writesOnly (.add32K d imm) s d ((x.toNat + imm.toNat) % 2 ^ 32) 1 ∧
      writesOnly (.sub32K d imm) s d ((x.toNat + (2 ^ 32 - imm.toNat)) % 2 ^ 32) 1 ∧
      writesOnly (.mul32K d imm) s d (x.toNat * imm.toNat % 2 ^ 32) 1 ∧
      writesOnly (.or32K d imm) s d (x.toNat % 2 ^ 32 ||| imm.toNat) 1 ∧
      writesOnly (.and32K d imm) s d (x.toNat % 2 ^ 32 &&& imm.toNat) 1 ∧
      writesOnly (.xor32K d imm) s d (x.toNat % 2 ^ 32 ^^^ imm.toNat) 1) ∧
    ∀ (src : Reg) (y : Word64), s.regs[src] = .written y →
      writesOnly (.add32X d src) s d ((x.toNat + y.toNat) % 2 ^ 32) 1 ∧
      writesOnly (.sub32X d src) s d ((x.toNat + (2 ^ 64 - y.toNat)) % 2 ^ 32) 1 ∧
      writesOnly (.mul32X d src) s d (x.toNat * y.toNat % 2 ^ 32) 1 ∧
      writesOnly (.or32X d src) s d ((x.toNat ||| y.toNat) % 2 ^ 32) 1 ∧
      writesOnly (.and32X d src) s d ((x.toNat &&& y.toNat) % 2 ^ 32) 1 ∧
      writesOnly (.xor32X d src) s d ((x.toNat ^^^ y.toNat) % 2 ^ 32) 1

/-- ADD, SUB, MUL, OR, AND and XOR of class ALU64, with K (sign-extended) and X: modulo 2^64 (R201, R250). -/
def Obligations.Alu64Results : Prop :=
  ∀ (s : State) (d : Reg) (x : Word64), s.regs[d] = .written x →
    (∀ imm : Word32,
      writesOnly (.add64K d imm) s d ((x.toNat + (sext32 imm).toNat) % 2 ^ 64) 1 ∧
      writesOnly (.sub64K d imm) s d ((x.toNat + (2 ^ 64 - (sext32 imm).toNat)) % 2 ^ 64) 1 ∧
      writesOnly (.mul64K d imm) s d (x.toNat * (sext32 imm).toNat % 2 ^ 64) 1 ∧
      writesOnly (.or64K d imm) s d (x.toNat ||| (sext32 imm).toNat) 1 ∧
      writesOnly (.and64K d imm) s d (x.toNat &&& (sext32 imm).toNat) 1 ∧
      writesOnly (.xor64K d imm) s d (x.toNat ^^^ (sext32 imm).toNat) 1) ∧
    ∀ (src : Reg) (y : Word64), s.regs[src] = .written y →
      writesOnly (.add64X d src) s d ((x.toNat + y.toNat) % 2 ^ 64) 1 ∧
      writesOnly (.sub64X d src) s d ((x.toNat + (2 ^ 64 - y.toNat)) % 2 ^ 64) 1 ∧
      writesOnly (.mul64X d src) s d (x.toNat * y.toNat % 2 ^ 64) 1 ∧
      writesOnly (.or64X d src) s d (x.toNat ||| y.toNat) 1 ∧
      writesOnly (.and64X d src) s d (x.toNat &&& y.toNat) 1 ∧
      writesOnly (.xor64X d src) s d (x.toNat ^^^ y.toNat) 1

/-- DIV and MOD by a divisor that is not zero, at both widths (R204, R209). -/
def Obligations.UnsignedDivision : Prop :=
  ∀ (s : State) (d : Reg) (x : Word64), s.regs[d] = .written x →
    (∀ imm : Word32, imm ≠ 0 →
      writesOnly (.div32K d imm) s d (x.toNat % 2 ^ 32 / imm.toNat) 1 ∧
      writesOnly (.mod32K d imm) s d (x.toNat % 2 ^ 32 % imm.toNat) 1 ∧
      writesOnly (.div64K d imm) s d (x.toNat / (sext32 imm).toNat) 1 ∧
      writesOnly (.mod64K d imm) s d (x.toNat % (sext32 imm).toNat) 1) ∧
    ∀ (src : Reg) (y : Word64), s.regs[src] = .written y →
      (low32 y ≠ 0 →
        writesOnly (.div32X d src) s d (x.toNat % 2 ^ 32 / (y.toNat % 2 ^ 32)) 1 ∧
        writesOnly (.mod32X d src) s d (x.toNat % 2 ^ 32 % (y.toNat % 2 ^ 32)) 1) ∧
      (y ≠ 0 →
        writesOnly (.div64X d src) s d (x.toNat / y.toNat) 1 ∧ writesOnly (.mod64X d src) s d (x.toNat % y.toNat) 1)

/-- SDIV and SMOD by a divisor that is not zero truncate toward zero, at both widths; for MIN by -1 they give the
values of the parameter `SdivOverflow` (R203, R204; four values, log 23). -/
def Obligations.SignedDivision : Prop :=
  ∀ (s : State) (d : Reg) (x : Word64), s.regs[d] = .written x →
    (∀ b : Word32, b ≠ 0 → ∀ i : Instr × Instr,
      (i = (.sdiv32K d b, .smod32K d b) ∨
        ∃ (src : Reg) (y : Word64), s.regs[src] = .written y ∧ low32 y = b ∧ i = (.sdiv32X d src, .smod32X d src)) →
      ((low32 x).toInt = -2 ^ 31 ∧ b.toInt = -1 →
        writesOnly i.1 s d s.params.sdivOverflow.quot32.toNat 1 ∧
        writesOnly i.2 s d s.params.sdivOverflow.rem32.toNat 1) ∧
      (¬ ((low32 x).toInt = -2 ^ 31 ∧ b.toInt = -1) →
        writesOnly i.1 s d (((low32 x).toInt.tdiv b.toInt) % 2 ^ 32).toNat 1 ∧
        writesOnly i.2 s d (((low32 x).toInt.tmod b.toInt) % 2 ^ 32).toNat 1)) ∧
    ∀ b : Word64, b ≠ 0 → ∀ i : Instr × Instr,
      ((∃ imm : Word32, sext32 imm = b ∧ i = (.sdiv64K d imm, .smod64K d imm)) ∨
        ∃ src : Reg, s.regs[src] = .written b ∧ i = (.sdiv64X d src, .smod64X d src)) →
      (x.toInt = -2 ^ 63 ∧ b.toInt = -1 →
        writesOnly i.1 s d s.params.sdivOverflow.quot64.toNat 1 ∧
        writesOnly i.2 s d s.params.sdivOverflow.rem64.toNat 1) ∧
      (¬ (x.toInt = -2 ^ 63 ∧ b.toInt = -1) →
        writesOnly i.1 s d ((x.toInt.tdiv b.toInt) % 2 ^ 64).toNat 1 ∧
        writesOnly i.2 s d ((x.toInt.tmod b.toInt) % 2 ^ 64).toNat 1)

/-- Division by zero gives 0; modulo by zero leaves the register in class ALU64 and zeroes its upper half in class ALU.
The divisor is the operand of the class's width, and the program goes on (R202). -/
def Obligations.DivisionByZero : Prop :=
  ∀ (s : State) (d : Reg) (x : Word64), s.regs[d] = .written x →
    (∀ i ∈ [Instr.div32K d 0, .sdiv32K d 0, .div64K d 0, .sdiv64K d 0], writesOnly i s d 0 1) ∧
    (∀ i ∈ [Instr.mod32K d 0, .smod32K d 0], writesOnly i s d (x.toNat % 2 ^ 32) 1) ∧
    (∀ i ∈ [Instr.mod64K d 0, .smod64K d 0], exec i s = .next { s with pc := s.pc + 1 }) ∧
    ∀ (src : Reg) (y : Word64), s.regs[src] = .written y →
      (y.toNat % 2 ^ 32 = 0 →
        (∀ i ∈ [Instr.div32X d src, .sdiv32X d src], writesOnly i s d 0 1) ∧
        ∀ i ∈ [Instr.mod32X d src, .smod32X d src], writesOnly i s d (x.toNat % 2 ^ 32) 1) ∧
      (y = 0 →
        (∀ i ∈ [Instr.div64X d src, .sdiv64X d src], writesOnly i s d 0 1) ∧
        ∀ i ∈ [Instr.mod64X d src, .smod64X d src], exec i s = .next { s with pc := s.pc + 1 })

/-- Shifts use the amount modulo the width; LSH and RSH shift in zeros, ARSH copies of the top bit (R205). -/
def Obligations.ShiftResults : Prop :=
  ∀ (s : State) (d : Reg) (x : Word64), s.regs[d] = .written x →
    (∀ imm : Word32,
      writesOnly (.lsh32K d imm) s d (x.toNat * 2 ^ (imm.toNat % 32) % 2 ^ 32) 1 ∧
      writesOnly (.rsh32K d imm) s d (x.toNat % 2 ^ 32 / 2 ^ (imm.toNat % 32)) 1 ∧
      writesOnly (.arsh32K d imm) s d ((low32 x).toInt / 2 ^ (imm.toNat % 32) % 2 ^ 32).toNat 1 ∧
      writesOnly (.lsh64K d imm) s d (x.toNat * 2 ^ (imm.toNat % 64) % 2 ^ 64) 1 ∧
      writesOnly (.rsh64K d imm) s d (x.toNat / 2 ^ (imm.toNat % 64)) 1 ∧
      writesOnly (.arsh64K d imm) s d (x.toInt / 2 ^ (imm.toNat % 64) % 2 ^ 64).toNat 1) ∧
    ∀ (src : Reg) (y : Word64), s.regs[src] = .written y →
      writesOnly (.lsh32X d src) s d (x.toNat * 2 ^ (y.toNat % 32) % 2 ^ 32) 1 ∧
      writesOnly (.rsh32X d src) s d (x.toNat % 2 ^ 32 / 2 ^ (y.toNat % 32)) 1 ∧
      writesOnly (.arsh32X d src) s d ((low32 x).toInt / 2 ^ (y.toNat % 32) % 2 ^ 32).toNat 1 ∧
      writesOnly (.lsh64X d src) s d (x.toNat * 2 ^ (y.toNat % 64) % 2 ^ 64) 1 ∧
      writesOnly (.rsh64X d src) s d (x.toNat / 2 ^ (y.toNat % 64)) 1 ∧
      writesOnly (.arsh64X d src) s d (x.toInt / 2 ^ (y.toNat % 64) % 2 ^ 64).toNat 1

/-- NEG, MOV and MOVSX at both widths; MOV and MOVSX do not need `x[d]` (R200, R206, R228, R235 to R238, R250, R269,
R276 to R280). -/
def Obligations.NegAndMoves : Prop :=
  ∀ (s : State) (d : Reg),
    (∀ x : Word64, s.regs[d] = .written x →
      writesOnly (.neg32 d) s d ((2 ^ 32 - x.toNat % 2 ^ 32) % 2 ^ 32) 1 ∧
      writesOnly (.neg64 d) s d ((2 ^ 64 - x.toNat) % 2 ^ 64) 1) ∧
    (∀ imm : Word32,
      writesOnly (.mov32K d imm) s d imm.toNat 1 ∧ writesOnly (.mov64K d imm) s d (imm.toInt % 2 ^ 64).toNat 1) ∧
    ∀ (src : Reg) (y : Word64), s.regs[src] = .written y →
      writesOnly (.mov32X d src) s d (y.toNat % 2 ^ 32) 1 ∧
      writesOnly (.mov64X d src) s d y.toNat 1 ∧
      writesOnly (.movsx32From8 d src) s d (((y.setWidth 8).toInt) % 2 ^ 32).toNat 1 ∧
      writesOnly (.movsx32From16 d src) s d (((y.setWidth 16).toInt) % 2 ^ 32).toNat 1 ∧
      writesOnly (.movsx64From8 d src) s d (((y.setWidth 8).toInt) % 2 ^ 64).toNat 1 ∧
      writesOnly (.movsx64From16 d src) s d (((y.setWidth 16).toInt) % 2 ^ 64).toNat 1 ∧
      writesOnly (.movsx64From32 d src) s d (((y.setWidth 32).toInt) % 2 ^ 64).toNat 1

/-- The nine byte swaps on both hosts: the low bytes, as they are or reversed, zero-extended (R7, R300). -/
def Obligations.ByteSwapResults : Prop :=
  ∀ (s : State) (d : Reg) (x : Word64), s.regs[d] = .written x →
    ∀ row ∈ ([(2, .le16, .be16, .bswap16), (4, .le32, .be32, .bswap32), (8, .le64, .be64, .bswap64)] :
        List (Nat × (Reg → Instr) × (Reg → Instr) × (Reg → Instr))),
      let (n, le, be, swap) := row
      (s.params.endian = .little →
        writesOnly (le d) s d (x.toNat % 2 ^ (8 * n)) 1 ∧ writesOnly (be d) s d (reversedBytes n x.toNat) 1) ∧
      (s.params.endian = .big →
        writesOnly (le d) s d (reversedBytes n x.toNat) 1 ∧ writesOnly (be d) s d (x.toNat % 2 ^ (8 * n)) 1) ∧
      writesOnly (swap d) s d (reversedBytes n x.toNat) 1

/-! ## Jumps -/

/-- JA and JA32 set `pc` to their target and change nothing else (R320, R324, R325). -/
def Obligations.UnconditionalJumps : Prop :=
  ∀ s : State, (∀ off : Off, exec (.ja off) s = .next { s with pc := s.pc + 1 + off.toInt }) ∧
    ∀ imm : Word32, exec (.ja32 imm) s = .next { s with pc := s.pc + 1 + imm.toInt }

/-- The conditional jumps of class JMP, with K (sign-extended) and X (R320, R321, R323). -/
def Obligations.Branches64 : Prop :=
  ∀ (s : State) (d : Reg) (x y : Word64) (off : Off), s.regs[d] = .written x →
    (∀ imm : Word32, sext32 imm = y →
      jumps (.jeqK d imm off) s (x.toNat = y.toNat) off.toInt ∧ jumps (.jneK d imm off) s (x.toNat ≠ y.toNat) off.toInt ∧
      jumps (.jgtK d imm off) s (x.toNat > y.toNat) off.toInt ∧ jumps (.jgeK d imm off) s (x.toNat ≥ y.toNat) off.toInt ∧
      jumps (.jltK d imm off) s (x.toNat < y.toNat) off.toInt ∧ jumps (.jleK d imm off) s (x.toNat ≤ y.toNat) off.toInt ∧
      jumps (.jsgtK d imm off) s (x.toInt > y.toInt) off.toInt ∧ jumps (.jsgeK d imm off) s (x.toInt ≥ y.toInt) off.toInt ∧
      jumps (.jsltK d imm off) s (x.toInt < y.toInt) off.toInt ∧ jumps (.jsleK d imm off) s (x.toInt ≤ y.toInt) off.toInt ∧
      jumps (.jsetK d imm off) s (x.toNat &&& y.toNat ≠ 0) off.toInt) ∧
    ∀ src : Reg, s.regs[src] = .written y →
      jumps (.jeqX d src off) s (x.toNat = y.toNat) off.toInt ∧ jumps (.jneX d src off) s (x.toNat ≠ y.toNat) off.toInt ∧
      jumps (.jgtX d src off) s (x.toNat > y.toNat) off.toInt ∧ jumps (.jgeX d src off) s (x.toNat ≥ y.toNat) off.toInt ∧
      jumps (.jltX d src off) s (x.toNat < y.toNat) off.toInt ∧ jumps (.jleX d src off) s (x.toNat ≤ y.toNat) off.toInt ∧
      jumps (.jsgtX d src off) s (x.toInt > y.toInt) off.toInt ∧ jumps (.jsgeX d src off) s (x.toInt ≥ y.toInt) off.toInt ∧
      jumps (.jsltX d src off) s (x.toInt < y.toInt) off.toInt ∧ jumps (.jsleX d src off) s (x.toInt ≤ y.toInt) off.toInt ∧
      jumps (.jsetX d src off) s (x.toNat &&& y.toNat ≠ 0) off.toInt

/-- The conditional jumps of class JMP32 on low halves, with K (the 32 bits as they are) and X (R320, R321, R323). -/
def Obligations.Branches32 : Prop :=
  ∀ (s : State) (d : Reg) (x : Word64) (a b : Word32) (off : Off), s.regs[d] = .written x → low32 x = a →
    (jumps (.jeq32K d b off) s (a.toNat = b.toNat) off.toInt ∧ jumps (.jne32K d b off) s (a.toNat ≠ b.toNat) off.toInt ∧
      jumps (.jgt32K d b off) s (a.toNat > b.toNat) off.toInt ∧ jumps (.jge32K d b off) s (a.toNat ≥ b.toNat) off.toInt ∧
      jumps (.jlt32K d b off) s (a.toNat < b.toNat) off.toInt ∧ jumps (.jle32K d b off) s (a.toNat ≤ b.toNat) off.toInt ∧
      jumps (.jsgt32K d b off) s (a.toInt > b.toInt) off.toInt ∧ jumps (.jsge32K d b off) s (a.toInt ≥ b.toInt) off.toInt ∧
      jumps (.jslt32K d b off) s (a.toInt < b.toInt) off.toInt ∧ jumps (.jsle32K d b off) s (a.toInt ≤ b.toInt) off.toInt ∧
      jumps (.jset32K d b off) s (a.toNat &&& b.toNat ≠ 0) off.toInt) ∧
    ∀ (src : Reg) (y : Word64), s.regs[src] = .written y → low32 y = b →
      jumps (.jeq32X d src off) s (a.toNat = b.toNat) off.toInt ∧ jumps (.jne32X d src off) s (a.toNat ≠ b.toNat) off.toInt ∧
      jumps (.jgt32X d src off) s (a.toNat > b.toNat) off.toInt ∧ jumps (.jge32X d src off) s (a.toNat ≥ b.toNat) off.toInt ∧
      jumps (.jlt32X d src off) s (a.toNat < b.toNat) off.toInt ∧ jumps (.jle32X d src off) s (a.toNat ≤ b.toNat) off.toInt ∧
      jumps (.jsgt32X d src off) s (a.toInt > b.toInt) off.toInt ∧ jumps (.jsge32X d src off) s (a.toInt ≥ b.toInt) off.toInt ∧
      jumps (.jslt32X d src off) s (a.toInt < b.toInt) off.toInt ∧ jumps (.jsle32X d src off) s (a.toInt ≤ b.toInt) off.toInt ∧
      jumps (.jset32X d src off) s (a.toNat &&& b.toNat ≠ 0) off.toInt

/-! ## Calls and exit -/

/-- CALL_LOCAL within the depth limit, under each convention (R382, R386; R10 is lowered modulo 2^64, log 22). -/
def Obligations.LocalCalls : Prop :=
  ∀ (s : State) (imm : Word32), (∀ n, s.params.maxCallDepth = some n → s.callStack.length < n) →
    (s.params.localCallConv = .pcOnly → exec (.callLocal imm) s =
      .next { s with callStack := ⟨s.pc + 1, none⟩ :: s.callStack, pc := s.pc + 1 + imm.toInt }) ∧
    (s.params.localCallConv = .linuxAbi → ∃ regs : Regs,
      exec (.callLocal imm) s = .next { s with
        callStack := ⟨s.pc + 1, some ⟨s.regs[6], s.regs[7], s.regs[8], s.regs[9], s.regs[10]⟩⟩ :: s.callStack
        pc := s.pc + 1 + imm.toInt
        regs := regs } ∧
      (∀ r : Reg, r.val ≤ 5 → regs[r] = s.regs[r]) ∧ (∀ r : Reg, 6 ≤ r.val → r.val ≤ 9 → regs[r] = .unwritten) ∧
      (s.regs[10] = .unwritten → regs[10] = .unwritten) ∧
      ∀ x : Word64, s.regs[10] = .written x →
        regs[10] = .written (BitVec.ofInt 64 (x.toNat - s.params.frameStride)))

/-- CALL_LOCAL raises `CallDepth(pc)` when `MaxCallDepth` is set and the stack already holds that many frames, and never
with no limit (R508). -/
def Obligations.CallDepthLimit : Prop :=
  ∀ (s : State) (imm : Word32),
    (∀ n, s.params.maxCallDepth = some n → n ≤ s.callStack.length → raises (.callLocal imm) s (.callDepth s.pc)) ∧
    (s.params.maxCallDepth = none → ∃ t, exec (.callLocal imm) s = .next t ∧ t.status = s.status)

/-- EXIT inside a local function pops the frame: it returns to its slot, restores what the frame saved, and reads no R0
(R384, R386). That the popped frame and not the parameter `LocalCallConv` decides what is restored is DEDUCED (log 17). -/
def Obligations.ExitReturns : Prop :=
  ∀ (s : State) (f : Frame) (rest : List Frame), s.callStack = f :: rest →
    (f.saved = none → exec .exit s = .next { s with callStack := rest, pc := f.ret }) ∧
    ∀ v : SavedRegs, f.saved = some v → ∃ regs : Regs,
      exec .exit s = .next { s with callStack := rest, pc := f.ret, regs := regs } ∧
      regs[0] = s.regs[0] ∧ (∀ r : Reg, 1 ≤ r.val → r.val ≤ 5 → regs[r] = .unwritten) ∧
      regs[6] = v.r6 ∧ regs[7] = v.r7 ∧ regs[8] = v.r8 ∧ regs[9] = v.r9 ∧ regs[10] = v.r10

/-- EXIT with an empty call stack ends the run with the value of R0, which must be written; nothing else changes
(R384, R387). -/
def Obligations.ExitEnds : Prop :=
  ∀ s : State, s.callStack = [] →
    (∀ x : Word64, s.regs[(0 : Reg)] = .written x → exec .exit s = .next { s with status := .exited x }) ∧
    (s.regs[(0 : Reg)] = .unwritten → raises .exit s (.uninitRegister 0))

/-- A call and the EXIT that ends its function, whatever the function did to the registers and memory without leaving
other frames: the run goes on after the call with the caller's R6 to R10 under `linux_abi`, and with the function's
registers under `pc_only` (R382, R384, R386). -/
def Obligations.CallThenReturn : Prop :=
  ∀ (s t u v : State) (imm : Word32), exec (.callLocal imm) s = .next t → t.status = .running →
    u.callStack = t.callStack → u.params = s.params → exec .exit u = .next v →
    v.pc = s.pc + 1 ∧ v.callStack = s.callStack ∧ v.regs[0] = u.regs[0] ∧
    (s.params.localCallConv = .pcOnly → v.regs = u.regs) ∧
    (s.params.localCallConv = .linuxAbi → ∀ r : Reg, 6 ≤ r.val → v.regs[r] = s.regs[r])

/-- A helper call to which `Helper` returns `Ok` takes its registers and bytes and goes on, also where what it returns is
the free value (R381, R383, R385). THE MODEL'S CHOICE: how the function is written down (log 9), that bytes outside every
region are dropped (log 10), and that the oracle is the event history and the number of the draw (log 26). -/
def Obligations.HelperAnswers : Prop :=
  ∀ (s : State) (id : Word32) (f : PlatformFn HelperInput HelperEffect) (regs : Regs)
    (writes : List (Nat × Option Byte)),
    ∀ row ∈ ([(.callHelper id, .staticId), (.callBtf id, .btfId)] : List (Instr × HelperKind)),
      tableLookup s.helper (row.2, id) = some f →
      givesAt f (Config.helper row.2 id) ⟨s.regs, s.mem, s.events, s.draws⟩ (.ok regs writes) →
      takesAnswer row.1 s regs writes (s.draws + 1)

/-- A helper call raises `UnknownHelper` where `Helper` is undefined for the pair (kind, id), and `HelperFault` with the
helper's own information where it returns `Fault` (R385, R509). THE MODEL'S CHOICE: how the function is written down
(log 9) and that the information is one natural number (log 25). -/
def Obligations.HelperFaults : Prop :=
  ∀ (s : State) (id : Word32),
    ∀ row ∈ ([(.callHelper id, .staticId), (.callBtf id, .btfId)] : List (Instr × HelperKind)),
      (tableLookup s.helper (row.2, id) = none → raises row.1 s (.unknownHelper row.2 id)) ∧
      ∀ (f : PlatformFn HelperInput HelperEffect) (info : Nat), tableLookup s.helper (row.2, id) = some f →
        givesAt f (Config.helper row.2 id) ⟨s.regs, s.mem, s.events, s.draws⟩ (.fault info) →
        raises row.1 s (.helperFault row.2 id info)

/-! ## Loads and stores -/

/-- LDX at every width loads the value that memory or, for a shared region, the oracle shows, zero-extended, and records
a shared read (R61, R62, R72, R400, R402 to R405; the oracle and the record are the model's, log 7, 8). -/
def Obligations.LoadsZeroExtend : Prop :=
  ∀ row ∈ ([(1, .ldxb), (2, .ldxh), (4, .ldxw), (8, .ldxdw)] : List (Nat × (Reg → Reg → Off → Instr))),
    let (n, mk) := row
    ∀ (s : State) (d src : Reg) (off : Off) (base addr : Word64) (r : Region) (v : Nat),
      s.regs[src] = .written base → addr.toNat = ((base.toNat + off.toInt) % 2 ^ 64).toNat →
      s.regionFor (·.readable) addr n = some r → (s.params.strictAlign = true → addr.toNat % n = 0) →
      s.sees r addr.toNat n v →
      exec (mk d src off) s = .next { s with
        regs := s.regs.set d (.written (BitVec.ofNat 64 v))
        pc := s.pc + 1
        events := s.noted r (.read addr n (BitVec.ofNat 64 v)) }

/-- LDXS at every width loads likewise and sign-extends (R61, R62, R72, R400, R406 to R408; log 7, 8). -/
def Obligations.LoadsSignExtend : Prop :=
  ∀ row ∈ ([(1, .ldxsb), (2, .ldxsh), (4, .ldxsw)] : List (Nat × (Reg → Reg → Off → Instr))),
    let (n, mk) := row
    ∀ (s : State) (d src : Reg) (off : Off) (base addr : Word64) (r : Region) (v : Nat),
      s.regs[src] = .written base → addr.toNat = ((base.toNat + off.toInt) % 2 ^ 64).toNat →
      s.regionFor (·.readable) addr n = some r → (s.params.strictAlign = true → addr.toNat % n = 0) →
      s.sees r addr.toNat n v →
      exec (mk d src off) s = .next { s with
        regs := s.regs.set d (.written (BitVec.ofInt 64 (BitVec.ofNat (8 * n) v).toInt))
        pc := s.pc + 1
        events := s.noted r (.read addr n (BitVec.ofNat 64 v)) }

/-- Where a load is not admitted, is misaligned under `StrictAlign`, or meets an unwritten byte of a private region, it
raises the fault, checked in that order (R62, R505 to R507, R511). -/
def Obligations.LoadFaults : Prop :=
  ∀ row ∈ ([(1, .ldxb), (2, .ldxh), (4, .ldxw), (8, .ldxdw), (1, .ldxsb), (2, .ldxsh), (4, .ldxsw)] :
      List (Nat × (Reg → Reg → Off → Instr))),
    let (n, mk) := row
    ∀ (s : State) (d src : Reg) (off : Off) (base addr : Word64),
      s.regs[src] = .written base → addr.toNat = ((base.toNat + off.toInt) % 2 ^ 64).toNat →
      (s.regionFor (·.readable) addr n = none → raises (mk d src off) s (.memFault addr n .read)) ∧
      ∀ r : Region, s.regionFor (·.readable) addr n = some r →
        (s.params.strictAlign = true → addr.toNat % n ≠ 0 → raises (mk d src off) s (.misaligned addr n)) ∧
        ((s.params.strictAlign = true → addr.toNat % n = 0) → r.shared = false →
          (∃ k < n, s.mem.get (addr.toNat + k) = none) → raises (mk d src off) s (.uninitMemory addr n))

/-- An access is admitted exactly when all its bytes, counted without wrap, lie below 2^64 and in one region with the
needed permission (R61, R62, R68). -/
def Obligations.Admission : Prop :=
  ∀ (s : State) (ok : Region → Bool) (addr : Word64) (n : Nat), (s.regionFor ok addr n).isSome = true ↔
    ∃ r ∈ s.params.regions, ok r = true ∧ r.base ≤ addr.toNat ∧ addr.toNat + n ≤ r.base + r.length ∧
      addr.toNat + n ≤ 2 ^ 64

/-- ST stores the low bytes of the immediate for B, H and W, and the sign-extended immediate for DW (R401). That a
shared write is recorded as one event is THE MODEL'S CHOICE (log 8). -/
def Obligations.ImmediateStores : Prop :=
  ∀ (s : State) (d : Reg) (off : Off) (imm : Word32) (base addr : Word64) (r : Region),
    s.regs[d] = .written base → addr.toNat = ((base.toNat + off.toInt) % 2 ^ 64).toNat →
    ∀ row ∈ ([(1, .stb, imm.toNat % 2 ^ 8), (2, .sth, imm.toNat % 2 ^ 16), (4, .stw, imm.toNat),
        (8, .stdw, (imm.toInt % 2 ^ 64).toNat)] : List (Nat × (Reg → Off → Word32 → Instr) × Nat)),
      let (n, mk, v) := row
      s.regionFor (·.writable) addr n = some r → (s.params.strictAlign = true → addr.toNat % n = 0) →
      storesOnly (mk d off imm) s r addr n v

/-- STX stores the low bytes of the register (R61, R63, R70, R400, R413 to R416; a shared write is recorded, log 8). -/
def Obligations.RegisterStores : Prop :=
  ∀ row ∈ ([(1, .stxb), (2, .stxh), (4, .stxw), (8, .stxdw)] : List (Nat × (Reg → Reg → Off → Instr))),
    let (n, mk) := row
    ∀ (s : State) (d src : Reg) (off : Off) (base addr x : Word64) (r : Region),
      s.regs[d] = .written base → s.regs[src] = .written x →
      addr.toNat = ((base.toNat + off.toInt) % 2 ^ 64).toNat →
      s.regionFor (·.writable) addr n = some r → (s.params.strictAlign = true → addr.toNat % n = 0) →
      storesOnly (mk d src off) s r addr n (x.toNat % 2 ^ (8 * n))

/-- Where a store is not admitted, or is misaligned under `StrictAlign`, it raises the fault and stores nothing (R63,
R505, R506). -/
def Obligations.StoreFaults : Prop :=
  ∀ (s : State) (d src : Reg) (off : Off) (imm : Word32) (base addr x : Word64),
    s.regs[d] = .written base → s.regs[src] = .written x →
    addr.toNat = ((base.toNat + off.toInt) % 2 ^ 64).toNat →
    ∀ row ∈ ([(1, .stb d off imm), (2, .sth d off imm), (4, .stw d off imm), (8, .stdw d off imm),
        (1, .stxb d src off), (2, .stxh d src off), (4, .stxw d src off), (8, .stxdw d src off)] : List (Nat × Instr)),
      let (n, i) := row
      (s.regionFor (·.writable) addr n = none → raises i s (.memFault addr n .write)) ∧
      ∀ r : Region, s.regionFor (·.writable) addr n = some r → s.params.strictAlign = true → addr.toNat % n ≠ 0 →
        raises i s (.misaligned addr n)

/-- A 64-bit store to a private region and a 64-bit load from the same address give the value back, on either host
(R62, R63, R73). -/
def Obligations.StoreThenLoad : Prop :=
  ∀ (s t : State) (d src q : Reg) (off : Off) (base x : Word64) (r : Region),
    s.regs[d] = .written base → s.regs[src] = .written x → s.status = .running →
    s.regionFor (·.readable) (effAddr base off) 8 = some r → r.shared = false →
    exec (.stxdw d src off) s = .next t → t.status = .running →
    exec (.ldxdw q d off) t = .next { t with regs := t.regs.set q (.written x), pc := t.pc + 1 }

/-! ## Atomic operations -/

/-- The atomic operations without FETCH: the memory value becomes the result and no register changes (R430 to R432,
R434, R436, R438, R442, R444, R446, R448; on a shared region one atomic event is recorded, log 8). -/
def Obligations.AtomicsWithoutFetch : Prop :=
  ∀ row ∈ ([(4, .atomicAdd32, fun a b => (a + b) % 2 ^ 32), (4, .atomicOr32, fun a b => a ||| b),
      (4, .atomicAnd32, fun a b => a &&& b), (4, .atomicXor32, fun a b => a ^^^ b),
      (8, .atomicAdd64, fun a b => (a + b) % 2 ^ 64), (8, .atomicOr64, fun a b => a ||| b),
      (8, .atomicAnd64, fun a b => a &&& b), (8, .atomicXor64, fun a b => a ^^^ b)] :
      List (Nat × (Reg → Reg → Off → Instr) × (Nat → Nat → Nat))),
    let (n, mk, op) := row
    ∀ (s : State) (d src : Reg) (off : Off) (base addr x : Word64) (r : Region) (old : Nat),
      s.regs[d] = .written base → s.regs[src] = .written x →
      addr.toNat = ((base.toNat + off.toInt) % 2 ^ 64).toNat →
      s.regionFor (fun g => g.readable && g.writable) addr n = some r → addr.toNat % n = 0 → s.sees r addr.toNat n old →
      updatesAtomically (mk d src off) s r addr n old (some (op old (x.toNat % 2 ^ (8 * n)))) s.regs

/-- The atomic operations with FETCH and the exchange: `src` also becomes the old value, zero-extended (R430, R431,
R433, R435, R437, R439, R440, R443, R445, R447, R449, R450; log 8). -/
def Obligations.AtomicsWithFetch : Prop :=
  ∀ row ∈ ([(4, .atomicFetchAdd32, fun a b => (a + b) % 2 ^ 32), (4, .atomicFetchOr32, fun a b => a ||| b),
      (4, .atomicFetchAnd32, fun a b => a &&& b), (4, .atomicFetchXor32, fun a b => a ^^^ b),
      (4, .atomicXchg32, fun _ b => b), (8, .atomicFetchAdd64, fun a b => (a + b) % 2 ^ 64),
      (8, .atomicFetchOr64, fun a b => a ||| b), (8, .atomicFetchAnd64, fun a b => a &&& b),
      (8, .atomicFetchXor64, fun a b => a ^^^ b), (8, .atomicXchg64, fun _ b => b)] :
      List (Nat × (Reg → Reg → Off → Instr) × (Nat → Nat → Nat))),
    let (n, mk, op) := row
    ∀ (s : State) (d src : Reg) (off : Off) (base addr x : Word64) (r : Region) (old : Nat),
      s.regs[d] = .written base → s.regs[src] = .written x →
      addr.toNat = ((base.toNat + off.toInt) % 2 ^ 64).toNat →
      s.regionFor (fun g => g.readable && g.writable) addr n = some r → addr.toNat % n = 0 → s.sees r addr.toNat n old →
      updatesAtomically (mk d src off) s r addr n old (some (op old (x.toNat % 2 ^ (8 * n))))
        (s.regs.set src (.written (BitVec.ofNat 64 old)))

/-- Compare and exchange stores `src` exactly when the old value equals R0 at the operation's width, and in either case
R0 becomes the old value, zero-extended; `src` is kept (R430, R441, R451; log 8). -/
def Obligations.CompareAndExchange : Prop :=
  ∀ row ∈ ([(4, .atomicCmpxchg32), (8, .atomicCmpxchg64)] : List (Nat × (Reg → Reg → Off → Instr))),
    let (n, mk) := row
    ∀ (s : State) (d src : Reg) (off : Off) (base addr x c : Word64) (r : Region) (old : Nat),
      s.regs[d] = .written base → s.regs[src] = .written x → s.regs[(0 : Reg)] = .written c →
      addr.toNat = ((base.toNat + off.toInt) % 2 ^ 64).toNat →
      s.regionFor (fun g => g.readable && g.writable) addr n = some r → addr.toNat % n = 0 → s.sees r addr.toNat n old →
      updatesAtomically (mk d src off) s r addr n old
        (if old = c.toNat % 2 ^ (8 * n) then some (x.toNat % 2 ^ (8 * n)) else none)
        (s.regs.set 0 (.written (BitVec.ofNat 64 old)))

/-- The checks of an atomic operation in order: a readable region, a readable and writable one, alignment whatever
`StrictAlign` is, written bytes in a private region (R430, R505 to R507). -/
def Obligations.AtomicFaults : Prop :=
  ∀ row ∈ ([(4, .atomicAdd32), (4, .atomicOr32), (4, .atomicAnd32), (4, .atomicXor32), (4, .atomicFetchAdd32),
      (4, .atomicFetchOr32), (4, .atomicFetchAnd32), (4, .atomicFetchXor32), (4, .atomicXchg32),
      (4, .atomicCmpxchg32), (8, .atomicAdd64), (8, .atomicOr64), (8, .atomicAnd64), (8, .atomicXor64),
      (8, .atomicFetchAdd64), (8, .atomicFetchOr64), (8, .atomicFetchAnd64), (8, .atomicFetchXor64),
      (8, .atomicXchg64), (8, .atomicCmpxchg64)] : List (Nat × (Reg → Reg → Off → Instr))),
    let (n, mk) := row
    ∀ (s : State) (d src : Reg) (off : Off) (base addr : Word64),
      s.regs[d] = .written base → (∀ q ∈ readsRegs (mk d src off), s.regs[q] ≠ .unwritten) →
      addr.toNat = ((base.toNat + off.toInt) % 2 ^ 64).toNat →
      (s.regionFor (·.readable) addr n = none → raises (mk d src off) s (.memFault addr n .read)) ∧
      ((s.regionFor (·.readable) addr n).isSome = true → s.regionFor (fun g => g.readable && g.writable) addr n = none →
        raises (mk d src off) s (.memFault addr n .write)) ∧
      ∀ r : Region, s.regionFor (fun g => g.readable && g.writable) addr n = some r →
        (addr.toNat % n ≠ 0 → raises (mk d src off) s (.misaligned addr n)) ∧
        (addr.toNat % n = 0 → r.shared = false → (∃ k < n, s.mem.get (addr.toNat + k) = none) →
          raises (mk d src off) s (.uninitMemory addr n))

/-! ## 64-bit immediates and packet loads -/

/-- LDDW loads `next_imm` and `imm` as the two halves, neither sign-extended, and goes on two slots (R470, R471). -/
def Obligations.LoadConstant : Prop :=
  ∀ (s : State) (d : Reg) (imm next : Word32), writesOnly (.lddw d imm next) s d (next.toNat * 2 ^ 32 + imm.toNat) 2

/-- The six lookups load what the platform function gives, the VAL forms with `next_imm` added modulo 2^64, and go on two
slots (R470, R472 to R477; the functions are the model's finite tables, log 13, 24). -/
def Obligations.PlatformLookups : Prop :=
  ∀ (s : State) (d : Reg) (imm next : Word32) (m a : Word64),
    (tableLookup s.params.mapByFd imm = some m →
      writesOnly (.ldMapFd d imm) s d m.toNat 2 ∧
      (tableLookup s.params.mapVal m = some a →
        writesOnly (.ldMapValFd d imm next) s d ((a.toNat + next.toNat) % 2 ^ 64) 2)) ∧
    (tableLookup s.params.mapByIdx imm = some m →
      writesOnly (.ldMapIdx d imm) s d m.toNat 2 ∧
      (tableLookup s.params.mapVal m = some a →
        writesOnly (.ldMapValIdx d imm next) s d ((a.toNat + next.toNat) % 2 ^ 64) 2)) ∧
    (tableLookup s.params.varAddr imm = some a → writesOnly (.ldVarAddr d imm) s d a.toNat 2) ∧
    (tableLookup s.params.codeAddr (s.pc, imm) = some a → writesOnly (.ldCodeAddr d imm) s d a.toNat 2)

/-- Where a platform function is undefined the lookup raises `PlatformLookup`, the inner function first (R478, R509,
R511). Undefined is not listed in the model's finite table (DESIGN CHOICE, log 13), and `code_addr` is keyed by `pc` and
`imm` (DEDUCED, log 24). -/
def Obligations.PlatformLookupFaults : Prop :=
  ∀ (s : State) (d : Reg) (imm next : Word32),
    (tableLookup s.params.mapByFd imm = none →
      raises (.ldMapFd d imm) s (.platformLookup (.mapByFd imm)) ∧
      raises (.ldMapValFd d imm next) s (.platformLookup (.mapByFd imm))) ∧
    (tableLookup s.params.mapByIdx imm = none →
      raises (.ldMapIdx d imm) s (.platformLookup (.mapByIdx imm)) ∧
      raises (.ldMapValIdx d imm next) s (.platformLookup (.mapByIdx imm))) ∧
    (∀ m : Word64, tableLookup s.params.mapVal m = none →
      (tableLookup s.params.mapByFd imm = some m → raises (.ldMapValFd d imm next) s (.platformLookup (.mapVal m))) ∧
      (tableLookup s.params.mapByIdx imm = some m →
        raises (.ldMapValIdx d imm next) s (.platformLookup (.mapVal m)))) ∧
    (tableLookup s.params.varAddr imm = none → raises (.ldVarAddr d imm) s (.platformLookup (.varAddr imm))) ∧
    (tableLookup s.params.codeAddr (s.pc, imm) = none →
      raises (.ldCodeAddr d imm) s (.platformLookup (.codeAddr s.pc imm)))

/-- Where the packet group is supported and there is a `PacketLoad`, a packet load takes the registers and bytes that it
answers and goes on, or raises what it raises. ABS reads no register; IND gives `PacketLoad` the value of `src_reg` and
raises `UninitRegister` where that is unwritten (R490 to R496, R504). THE MODEL'S CHOICE: how the function is written down
(log 11), that bytes outside every region are dropped (log 10), and that `PacketLoad` may raise any fault (log 12). -/
def Obligations.PacketAnswers : Prop :=
  ∀ (s : State) (f : PlatformFn PacketInput PacketEffect) (imm : Word32), s.params.supports .packet = true →
    s.packetLoad = some f →
    (∀ row ∈ ([(4, .ldabsw imm), (2, .ldabsh imm), (1, .ldabsb imm)] : List (Nat × Instr)),
      (∀ regs writes, givesAt f Config.packetLoad ⟨.abs, row.1, imm, s.regs, s.mem⟩ (.ok regs writes) →
        takesAnswer row.2 s regs writes s.draws) ∧
      ∀ e, givesAt f Config.packetLoad ⟨.abs, row.1, imm, s.regs, s.mem⟩ (.fault e) → raises row.2 s e) ∧
    ∀ src : Reg, ∀ row ∈ ([(4, .ldindw src imm), (2, .ldindh src imm), (1, .ldindb src imm)] : List (Nat × Instr)),
      (s.regs[src] = .unwritten → raises row.2 s (.uninitRegister src)) ∧
      ∀ x : Word64, s.regs[src] = .written x →
        (∀ regs writes, givesAt f Config.packetLoad ⟨.ind x, row.1, imm, s.regs, s.mem⟩ (.ok regs writes) →
          takesAnswer row.2 s regs writes s.draws) ∧
        ∀ e, givesAt f Config.packetLoad ⟨.ind x, row.1, imm, s.regs, s.mem⟩ (.fault e) → raises row.2 s e

/-- A packet load is an illegal instruction where the packet group is not supported or there is no `PacketLoad`, whatever
`src_reg` holds, and where `PacketLoad` is undefined at its arguments, of which the value of `src_reg` is one for IND
(R490 to R496, R501, R511). THE MODEL'S CHOICE: how the function is written down (log 11), and that the two cases stand
before and after the read of `src_reg` (log 12). -/
def Obligations.PacketLoadsIllegal : Prop :=
  ∀ (s : State) (src : Reg) (imm : Word32),
    ((s.params.supports .packet = false ∨ s.packetLoad = none) →
      ∀ i ∈ [Instr.ldabsw imm, .ldabsh imm, .ldabsb imm, .ldindw src imm, .ldindh src imm, .ldindb src imm],
        raises i s (.illegalInstruction s.pc i.word)) ∧
    ∀ f : PlatformFn PacketInput PacketEffect, s.params.supports .packet = true → s.packetLoad = some f →
      (∀ row ∈ ([(4, .ldabsw imm), (2, .ldabsh imm), (1, .ldabsb imm)] : List (Nat × Instr)),
        givesAt f Config.packetLoad ⟨.abs, row.1, imm, s.regs, s.mem⟩ .undefined →
        raises row.2 s (.illegalInstruction s.pc row.2.word)) ∧
      ∀ row ∈ ([(4, .ldindw src imm), (2, .ldindh src imm), (1, .ldindb src imm)] : List (Nat × Instr)),
        ∀ x : Word64, s.regs[src] = .written x →
          givesAt f Config.packetLoad ⟨.ind x, row.1, imm, s.regs, s.mem⟩ .undefined →
          raises row.2 s (.illegalInstruction s.pc row.2.word)
end

