-- ==== Sys2Proof/Laws/Encoding.lean ====
section
/-! SUPPORT. The laws of the field layout: a slot holds the fields it was made from, on either host, and a canonical
word too; a register's field reads as the register; and the bytes of R101. -/

namespace Sys2Proof

theorem append_nibbles (a b : BitVec 4) :
    (a ++ b).extractLsb' 0 4 = b ∧ (a ++ b).extractLsb' 4 4 = a := by
  constructor <;> apply BitVec.eq_of_toNat_eq <;>
    simp only [BitVec.extractLsb'_toNat, BitVec.toNat_append, Nat.shiftRight_eq_div_pow, Nat.shiftLeft_eq] <;>
    rw [← Nat.shiftLeft_eq, ← Nat.shiftLeft_add_eq_or_of_lt b.isLt] <;>
    have := a.isLt <;> have := b.isLt <;> simp only [Nat.shiftLeft_eq] <;> omega

theorem join_halves (v : BitVec 16) : v.extractLsb' 8 8 ++ v.extractLsb' 0 8 = v := by
  ext i hi
  simp only [BitVec.getElem_append, BitVec.getElem_extractLsb']
  split
  · simp [BitVec.getLsbD_eq_getElem hi]
  · rw [show 8 + (i - 8) = i by omega]; simp [BitVec.getLsbD_eq_getElem hi]

theorem join_quarters (v : BitVec 32) :
    v.extractLsb' 24 8 ++ v.extractLsb' 16 8 ++ v.extractLsb' 8 8 ++ v.extractLsb' 0 8 = v := by
  ext i hi
  simp only [BitVec.getElem_append, BitVec.getElem_extractLsb']
  split
  · simp [BitVec.getLsbD_eq_getElem hi]
  · split
    · rw [show 8 + (i - 8) = i by omega]; simp [BitVec.getLsbD_eq_getElem hi]
    · split
      · rw [show 16 + (i - 8 - 8) = i by omega]; simp [BitVec.getLsbD_eq_getElem hi]
      · rw [show 24 + (i - 8 - 8 - 8) = i by omega]; simp [BitVec.getLsbD_eq_getElem hi]

/-- A slot made from fields holds those fields, on either host (R101). -/
@[simp] theorem Fields.fields_slot (e : Endian) (f : Fields) : (f.slot e).fields e = f := by
  have hn := append_nibbles f.src f.dst
  have hm := append_nibbles f.dst f.src
  cases e <;> simp only [Fields.slot, Slot.fields, hn.1, hn.2, hm.1, hm.2, join_halves, join_quarters]

/-- A register's field reads as that register (R112). -/
@[simp] theorem asReg_regBits (r : Reg) : asReg (regBits r) = .ok r := by
  revert r; decide

@[simp] theorem unused_zero (n : Nat) : unused (0 : BitVec n) = .ok () := by simp [unused]

end Sys2Proof
end

