-- ==== Sys2Proof/Laws/Ops.lean ====
section
/-! SUPPORT. For each shared operation, once, everything it can do: what it gives where its checks pass, and the cases
of a next state that it answers. -/

namespace Sys2Proof.Machine

/-- The state that raising a fault leaves (R500). -/
theorem raise_next (f : Fault) (s : State) : raise f s = .next { s with status := .faulted f } := rfl

theorem raise_cases {f : Fault} {s t : State} (h : raise f s = .next t) : t = { s with status := .faulted f } := by
  simpa [raise] using h.symm

theorem finish_next (s : State) (r : Reg) (v : Word64) (n : Int) :
    finish s r v n = .next ((s.setReg r v).advance n) := rfl

/-! ## Registers and operands -/

section
variable {r : Reg} {b : Operand} {s t : State} {k : Word64 → Result} {k32 : Word32 → Result}

@[simp] theorem readReg_written {v : Word64} (h : s.regs[r] = .written v) : readReg r s k = k v := by
  simp only [readReg, h]

@[simp] theorem readReg_unwritten (h : s.regs[r] = .unwritten) : readReg r s k = raise (.uninitRegister r) s := by
  simp only [readReg, h]

theorem readReg_cases (h : readReg r s k = .next t) :
    (∃ v, s.regs[r] = .written v ∧ k v = .next t) ∨
    (s.regs[r] = .unwritten ∧ t = { s with status := .faulted (.uninitRegister r) }) := by
  cases e : s.regs[r] with
  | written v => exact .inl ⟨v, rfl, by simpa [readReg, e] using h⟩
  | unwritten => exact .inr ⟨rfl, raise_cases (by simpa [readReg, e] using h)⟩

@[simp] theorem source32_imm (v : Word32) : source32 (.imm v) s k32 = k32 v := rfl
@[simp] theorem source64_imm (v : Word32) : source64 (.imm v) s k = k (sext32 v) := rfl
@[simp] theorem source32_reg : source32 (.reg r) s k32 = readReg r s fun v => k32 (low32 v) := rfl
@[simp] theorem source64_reg : source64 (.reg r) s k = readReg r s k := rfl

/-- A source operand is a value, or its register is unwritten and the fault is raised. -/
theorem source32_cases (h : source32 b s k32 = .next t) :
    (∃ v, k32 v = .next t) ∨ ∃ r, t = { s with status := .faulted (.uninitRegister r) } := by
  cases b with
  | imm v => exact .inl ⟨v, h⟩
  | reg r =>
    obtain ⟨v, -, hv⟩ | ⟨-, ht⟩ := readReg_cases h
    · exact .inl ⟨low32 v, hv⟩
    · exact .inr ⟨r, ht⟩

theorem source64_cases (h : source64 b s k = .next t) :
    (∃ v, k v = .next t) ∨ ∃ r, t = { s with status := .faulted (.uninitRegister r) } := by
  cases b with
  | imm v => exact .inl ⟨sext32 v, h⟩
  | reg r =>
    obtain ⟨v, -, hv⟩ | ⟨-, ht⟩ := readReg_cases h
    · exact .inl ⟨v, hv⟩
    · exact .inr ⟨r, ht⟩
end

/-! ## Memory -/

section
variable {addr : Word64} {n : Nat} {s t : State} {r : Region} {k : Word64 → State → Result} {k1 : State → Result}

/-- A read whose checks pass (R62). -/
theorem memRead_ok {bytes : List Byte} (ha : s.regionFor (·.readable) addr n = some r)
    (hal : s.params.strictAlign = true → addr.toNat % n = 0) (hl : s.load r addr.toNat n = some bytes) :
    memRead addr n s k =
      k (ofHostBytes s.params.endian bytes) (s.record r (.read addr n (ofHostBytes s.params.endian bytes))) := by
  have hna : ¬ (s.params.strictAlign = true ∧ addr.toNat % n ≠ 0) := fun h => h.2 (hal h.1)
  simp only [memRead, ha, hl, if_neg hna]

/-- What a read that gives a next state did: it read a value from a readable region and recorded it, or raised. -/
theorem memRead_cases (h : memRead addr n s k = .next t) :
    (∃ r bytes, s.regionFor (·.readable) addr n = some r ∧ s.load r addr.toNat n = some bytes ∧
      k (ofHostBytes s.params.endian bytes) (s.record r (.read addr n (ofHostBytes s.params.endian bytes))) = .next t) ∨
    ∃ f, t = { s with status := .faulted f } := by
  unfold memRead at h
  split at h
  · exact .inr ⟨_, raise_cases h⟩
  · next r hr =>
    split at h
    · exact .inr ⟨_, raise_cases h⟩
    · split at h
      · exact .inr ⟨_, raise_cases h⟩
      · next bytes hb => exact .inl ⟨r, bytes, hr, hb, h⟩

/-- A write whose checks pass (R63). -/
theorem memWrite_ok {v : Word64} (ha : s.regionFor (·.writable) addr n = some r)
    (hal : s.params.strictAlign = true → addr.toNat % n = 0) :
    memWrite addr n v s k1 = k1 ((s.put addr n v).record r (.write addr n (lowBytes n v))) := by
  have hna : ¬ (s.params.strictAlign = true ∧ addr.toNat % n ≠ 0) := fun h => h.2 (hal h.1)
  simp only [memWrite, ha, if_neg hna]

/-- What a write that gives a next state did: it stored into a writable region, or raised. -/
theorem memWrite_cases {v : Word64} (h : memWrite addr n v s k1 = .next t) :
    (∃ r, s.regionFor (·.writable) addr n = some r ∧
      k1 ((s.put addr n v).record r (.write addr n (lowBytes n v))) = .next t) ∨
    ∃ f, t = { s with status := .faulted f } := by
  unfold memWrite at h
  split at h
  · exact .inr ⟨_, raise_cases h⟩
  · next r hr =>
    split at h
    · exact .inr ⟨_, raise_cases h⟩
    · exact .inl ⟨r, hr, h⟩

/-- What an atomic operation that gives a next state did: it committed to a readable and writable region, or raised. -/
theorem atomicUpdate_cases {f : Word64 → Option Word64} (h : atomicUpdate addr n f s k = .next t) :
    (∃ r bytes, s.regionFor (fun g => g.readable && g.writable) addr n = some r ∧ addr.toNat % n = 0 ∧
      s.load r addr.toNat n = some bytes ∧
      k (ofHostBytes s.params.endian bytes) (s.commit r addr n (ofHostBytes s.params.endian bytes)
        (f (ofHostBytes s.params.endian bytes))) = .next t) ∨
    ∃ e, t = { s with status := .faulted e } := by
  unfold atomicUpdate at h
  split at h
  · exact .inr ⟨_, raise_cases h⟩
  · split at h
    · exact .inr ⟨_, raise_cases h⟩
    · next r hr =>
      split at h
      · exact .inr ⟨_, raise_cases h⟩
      · next hm =>
        split at h
        · exact .inr ⟨_, raise_cases h⟩
        · next bytes hb => exact .inl ⟨r, bytes, hr, by simpa using hm, hb, h⟩

/-- An admitted access lies in its region and below 2^64, with the permission asked for (R68). -/
theorem State.regionFor_some {ok : Region → Bool} (h : s.regionFor ok addr n = some r) :
    r ∈ s.params.regions ∧ ok r = true ∧ r.base ≤ addr.toNat ∧ addr.toNat + n ≤ r.base + r.length ∧
      addr.toNat + n ≤ 2 ^ 64 := by
  have hm := List.mem_of_find?_eq_some h
  have hp := List.find?_some h
  simp only [regionHolds, Bool.and_eq_true, decide_eq_true_eq] at hp
  exact ⟨hm, hp.1, hp.2.1.1, hp.2.1.2, hp.2.2⟩

/-- Where one region is both readable and writable and admits the access, reading alone is admitted too. -/
theorem State.regionFor_readable (h : s.regionFor (fun g => g.readable && g.writable) addr n = some r) :
    ∃ q, s.regionFor (·.readable) addr n = some q := by
  obtain ⟨hm, hok, h1, h2, h3⟩ := State.regionFor_some h
  cases e : s.regionFor (·.readable) addr n with
  | some q => exact ⟨q, rfl⟩
  | none =>
    have := List.find?_eq_none.mp e r hm
    simp_all [regionHolds]

/-- An atomic operation whose checks pass (R430). -/
theorem atomicUpdate_ok {f : Word64 → Option Word64} {bytes : List Byte}
    (ha : s.regionFor (fun g => g.readable && g.writable) addr n = some r) (hal : addr.toNat % n = 0)
    (hl : s.load r addr.toNat n = some bytes) :
    atomicUpdate addr n f s k =
      k (ofHostBytes s.params.endian bytes) (s.commit r addr n (ofHostBytes s.params.endian bytes)
        (f (ofHostBytes s.params.endian bytes))) := by
  obtain ⟨q, hq⟩ := State.regionFor_readable ha
  simp [atomicUpdate, ha, hq, hl, hal]
end

/-! ## The platform -/

section
variable {s t : State} {k : Word64 → Result} {q : PlatformQuery} {v : Word64}

@[simp] theorem platform_some : platform (some v) q s k = k v := rfl
@[simp] theorem platform_none : platform none q s k = raise (.platformLookup q) s := rfl

theorem platform_cases {o : Option Word64} (h : platform o q s k = .next t) :
    (∃ v, o = some v ∧ k v = .next t) ∨ (o = none ∧ t = { s with status := .faulted (.platformLookup q) }) := by
  cases o with
  | some v => exact .inl ⟨v, rfl, h⟩
  | none => exact .inr ⟨rfl, raise_cases h⟩

section
variable {α β : Type} [DecidableEq α] {f : PlatformFn α β} {free : α → β} {x : α} {y : β}

theorem answerAt_listed (h : tableLookup f.listed x = some y) : answerAt f free x = y := by simp [answerAt, h]

theorem answerAt_otherwise (hl : tableLookup f.listed x = none) (h : f.otherwise = some y) : answerAt f free x = y := by
  simp [answerAt, hl, h]

theorem answerAt_free (hl : tableLookup f.listed x = none) (h : f.otherwise = none) :
    answerAt f free x = free x := by
  simp [answerAt, hl, h]
end

/-- `Helper` is defined exactly at the pairs that the state lists (R385). -/
theorem State.helperAnswer_isSome {kind : HelperKind} {id : Word32} :
    (s.helperAnswer kind id).isSome = (tableLookup s.helper (kind, id)).isSome := by
  unfold State.helperAnswer
  split <;> simp [*]

/-- What a helper call that gives a next state did: it installed what `Helper` returned, or raised. -/
theorem callPlatform_cases {kind : HelperKind} {id : Word32} (h : callPlatform kind id s = .next t) :
    (∃ regs writes, s.helperAnswer kind id = some (.ok regs writes) ∧
      t = (({ s with draws := s.draws + 1 }).install regs writes).advance 1) ∨
    ∃ f, t = { s with status := .faulted f } := by
  unfold callPlatform at h
  split at h
  · exact .inr ⟨_, raise_cases h⟩
  · exact .inr ⟨_, raise_cases h⟩
  · next heq => exact .inl ⟨_, _, heq, (Host.Outcome.next.inj h).symm⟩
end

end Sys2Proof.Machine
end

