-- ==== Sys2Proof/Laws/State.lean ====
section
/-! SUPPORT. What each state update leaves and sets, one lemma per field (so that no proof unfolds a record update). -/

namespace Sys2Proof.Machine

variable (s : State) (r j : Reg) (v old : Word64) (d : Int) (a : Word64) (n : Nat) (rs : Regs)
  (ws : List (Nat × Option Byte)) (off : Off) (imm : Word32) (g : Region) (ev : Event) (new : Option Word64)

@[simp] theorem State.setReg_regs : (s.setReg r v).regs = s.regs.set r (.written v) := rfl
@[simp] theorem State.setReg_pc : (s.setReg r v).pc = s.pc := rfl
@[simp] theorem State.setReg_callStack : (s.setReg r v).callStack = s.callStack := rfl
@[simp] theorem State.setReg_mem : (s.setReg r v).mem = s.mem := rfl
@[simp] theorem State.setReg_status : (s.setReg r v).status = s.status := rfl
@[simp] theorem State.setReg_prog : (s.setReg r v).prog = s.prog := rfl
@[simp] theorem State.setReg_params : (s.setReg r v).params = s.params := rfl
@[simp] theorem State.setReg_events : (s.setReg r v).events = s.events := rfl
@[simp] theorem State.setReg_helper : (s.setReg r v).helper = s.helper := rfl
@[simp] theorem State.setReg_packetLoad : (s.setReg r v).packetLoad = s.packetLoad := rfl
@[simp] theorem State.setReg_draws : (s.setReg r v).draws = s.draws := rfl

theorem State.setReg_get :
    (s.setReg r v).regs[j] = if r = j then .written v else s.regs[j] := by
  simp only [State.setReg_regs, Fin.getElem_fin, Vector.getElem_set, Fin.val_inj]

@[simp] theorem State.setReg_get_self : (s.setReg r v).regs[r] = .written v := by
  simp

@[simp] theorem State.setReg_get_ne (h : r ≠ j) :
    (s.setReg r v).regs[j] = s.regs[j] := by
  simp only [State.setReg_get, if_neg h]

@[simp] theorem State.advance_regs : (s.advance d).regs = s.regs := rfl
@[simp] theorem State.advance_pc : (s.advance d).pc = s.pc + d := rfl
@[simp] theorem State.advance_callStack : (s.advance d).callStack = s.callStack := rfl
@[simp] theorem State.advance_mem : (s.advance d).mem = s.mem := rfl
@[simp] theorem State.advance_status : (s.advance d).status = s.status := rfl
@[simp] theorem State.advance_prog : (s.advance d).prog = s.prog := rfl
@[simp] theorem State.advance_params : (s.advance d).params = s.params := rfl
@[simp] theorem State.advance_events : (s.advance d).events = s.events := rfl
@[simp] theorem State.advance_helper : (s.advance d).helper = s.helper := rfl
@[simp] theorem State.advance_packetLoad : (s.advance d).packetLoad = s.packetLoad := rfl
@[simp] theorem State.advance_draws : (s.advance d).draws = s.draws := rfl

@[simp] theorem State.put_regs : (s.put a n v).regs = s.regs := rfl
@[simp] theorem State.put_pc : (s.put a n v).pc = s.pc := rfl
@[simp] theorem State.put_callStack : (s.put a n v).callStack = s.callStack := rfl
@[simp] theorem State.put_mem : (s.put a n v).mem = s.mem.store a.toNat (hostBytes s.params.endian n v) := rfl
@[simp] theorem State.put_status : (s.put a n v).status = s.status := rfl
@[simp] theorem State.put_prog : (s.put a n v).prog = s.prog := rfl
@[simp] theorem State.put_params : (s.put a n v).params = s.params := rfl
@[simp] theorem State.put_events : (s.put a n v).events = s.events := rfl
@[simp] theorem State.put_helper : (s.put a n v).helper = s.helper := rfl
@[simp] theorem State.put_packetLoad : (s.put a n v).packetLoad = s.packetLoad := rfl
@[simp] theorem State.put_draws : (s.put a n v).draws = s.draws := rfl

@[simp] theorem State.install_regs : (s.install rs ws).regs = rs := rfl
@[simp] theorem State.install_pc : (s.install rs ws).pc = s.pc := rfl
@[simp] theorem State.install_callStack : (s.install rs ws).callStack = s.callStack := rfl
@[simp] theorem State.install_mem : (s.install rs ws).mem = applyWrites s.params.regions s.mem ws := rfl
@[simp] theorem State.install_status : (s.install rs ws).status = s.status := rfl
@[simp] theorem State.install_prog : (s.install rs ws).prog = s.prog := rfl
@[simp] theorem State.install_params : (s.install rs ws).params = s.params := rfl
@[simp] theorem State.install_events : (s.install rs ws).events = s.events := rfl
@[simp] theorem State.install_helper : (s.install rs ws).helper = s.helper := rfl
@[simp] theorem State.install_packetLoad : (s.install rs ws).packetLoad = s.packetLoad := rfl
@[simp] theorem State.install_draws : (s.install rs ws).draws = s.draws := rfl

@[simp] theorem State.pushFrame_regs : (s.pushFrame).regs = s.calleeRegs := rfl
@[simp] theorem State.pushFrame_pc : (s.pushFrame).pc = s.pc := rfl
@[simp] theorem State.pushFrame_callStack : (s.pushFrame).callStack = ⟨s.pc + 1, s.saved⟩ :: s.callStack := rfl
@[simp] theorem State.pushFrame_mem : (s.pushFrame).mem = s.mem := rfl
@[simp] theorem State.pushFrame_status : (s.pushFrame).status = s.status := rfl
@[simp] theorem State.pushFrame_prog : (s.pushFrame).prog = s.prog := rfl
@[simp] theorem State.pushFrame_params : (s.pushFrame).params = s.params := rfl
@[simp] theorem State.pushFrame_events : (s.pushFrame).events = s.events := rfl
@[simp] theorem State.pushFrame_helper : (s.pushFrame).helper = s.helper := rfl
@[simp] theorem State.pushFrame_packetLoad : (s.pushFrame).packetLoad = s.packetLoad := rfl
@[simp] theorem State.pushFrame_draws : (s.pushFrame).draws = s.draws := rfl

@[simp] theorem State.jumpBy_regs : (s.jumpBy off).regs = s.regs := rfl
@[simp] theorem State.jumpBy_pc : (s.jumpBy off).pc = s.pc + (1 + off.toInt) := rfl
@[simp] theorem State.jumpBy_callStack : (s.jumpBy off).callStack = s.callStack := rfl
@[simp] theorem State.jumpBy_mem : (s.jumpBy off).mem = s.mem := rfl
@[simp] theorem State.jumpBy_status : (s.jumpBy off).status = s.status := rfl
@[simp] theorem State.jumpBy_prog : (s.jumpBy off).prog = s.prog := rfl
@[simp] theorem State.jumpBy_params : (s.jumpBy off).params = s.params := rfl
@[simp] theorem State.jumpBy_events : (s.jumpBy off).events = s.events := rfl
@[simp] theorem State.jumpBy_helper : (s.jumpBy off).helper = s.helper := rfl
@[simp] theorem State.jumpBy_packetLoad : (s.jumpBy off).packetLoad = s.packetLoad := rfl
@[simp] theorem State.jumpBy_draws : (s.jumpBy off).draws = s.draws := rfl

@[simp] theorem State.jumpFar_regs : (s.jumpFar imm).regs = s.regs := rfl
@[simp] theorem State.jumpFar_pc : (s.jumpFar imm).pc = s.pc + (1 + imm.toInt) := rfl
@[simp] theorem State.jumpFar_callStack : (s.jumpFar imm).callStack = s.callStack := rfl
@[simp] theorem State.jumpFar_mem : (s.jumpFar imm).mem = s.mem := rfl
@[simp] theorem State.jumpFar_status : (s.jumpFar imm).status = s.status := rfl
@[simp] theorem State.jumpFar_prog : (s.jumpFar imm).prog = s.prog := rfl
@[simp] theorem State.jumpFar_params : (s.jumpFar imm).params = s.params := rfl
@[simp] theorem State.jumpFar_events : (s.jumpFar imm).events = s.events := rfl
@[simp] theorem State.jumpFar_helper : (s.jumpFar imm).helper = s.helper := rfl
@[simp] theorem State.jumpFar_packetLoad : (s.jumpFar imm).packetLoad = s.packetLoad := rfl
@[simp] theorem State.jumpFar_draws : (s.jumpFar imm).draws = s.draws := rfl

@[simp] theorem State.record_regs : (s.record g ev).regs = s.regs := by
  unfold State.record; split <;> rfl
@[simp] theorem State.record_pc : (s.record g ev).pc = s.pc := by
  unfold State.record; split <;> rfl
@[simp] theorem State.record_callStack : (s.record g ev).callStack = s.callStack := by
  unfold State.record; split <;> rfl
@[simp] theorem State.record_mem : (s.record g ev).mem = s.mem := by
  unfold State.record; split <;> rfl
@[simp] theorem State.record_status : (s.record g ev).status = s.status := by
  unfold State.record; split <;> rfl
@[simp] theorem State.record_prog : (s.record g ev).prog = s.prog := by
  unfold State.record; split <;> rfl
@[simp] theorem State.record_params : (s.record g ev).params = s.params := by
  unfold State.record; split <;> rfl
@[simp] theorem State.record_helper : (s.record g ev).helper = s.helper := by
  unfold State.record; split <;> rfl
@[simp] theorem State.record_packetLoad : (s.record g ev).packetLoad = s.packetLoad := by
  unfold State.record; split <;> rfl
@[simp] theorem State.record_draws : (s.record g ev).draws = s.draws := by
  unfold State.record; split <;> rfl
theorem State.record_events :
    (s.record g ev).events = if g.shared then ev :: s.events else s.events := by
  unfold State.record; split <;> rfl
theorem State.record_private (h : g.shared = false) : s.record g ev = s := by
  simp [State.record, h]

@[simp] theorem State.commit_regs :
    (s.commit g a n old new).regs = s.regs := by
  cases new <;> simp [State.commit]
@[simp] theorem State.commit_pc :
    (s.commit g a n old new).pc = s.pc := by
  cases new <;> simp [State.commit]
@[simp] theorem State.commit_callStack :
    (s.commit g a n old new).callStack = s.callStack := by
  cases new <;> simp [State.commit]
@[simp] theorem State.commit_status :
    (s.commit g a n old new).status = s.status := by
  cases new <;> simp [State.commit]
@[simp] theorem State.commit_prog :
    (s.commit g a n old new).prog = s.prog := by
  cases new <;> simp [State.commit]
@[simp] theorem State.commit_params :
    (s.commit g a n old new).params = s.params := by
  cases new <;> simp [State.commit]
@[simp] theorem State.commit_helper :
    (s.commit g a n old new).helper = s.helper := by
  cases new <;> simp [State.commit]
@[simp] theorem State.commit_packetLoad :
    (s.commit g a n old new).packetLoad = s.packetLoad := by
  cases new <;> simp [State.commit]
@[simp] theorem State.commit_draws :
    (s.commit g a n old new).draws = s.draws := by
  cases new <;> simp [State.commit]
@[simp] theorem State.commit_none_mem :
    (s.commit g a n old none).mem = s.mem := by
  simp [State.commit]
@[simp] theorem State.commit_some_mem :
    (s.commit g a n old (some v)).mem = s.mem.store a.toNat (hostBytes s.params.endian n v) := by
  simp [State.commit]

/-- Under `pc_only` a call changes no register (R386). -/
@[simp] theorem State.calleeRegs_pcOnly (h : s.params.localCallConv = .pcOnly) : s.calleeRegs = s.regs := by
  simp [State.calleeRegs, h]

/-- A frame without saved registers restores nothing (R386). -/
@[simp] theorem returnRegs_none (regs : Regs) : returnRegs none regs = regs := rfl

end Sys2Proof.Machine
end

