-- ==== Sys2Proof/Laws/Exec.lean ====
section
/-! SUPPORT. What each family's shared operation can do, once, and from them everything that executing an instruction
can do: the lemmas about the whole machine cite `exec_cases` and unfold no meaning. -/

namespace Sys2Proof.Machine

variable {s t : State} {d src : Reg} {b : Operand} {n : Nat} {off : Off} {imm : Word32}

/-- The state that some fault leaves. -/
abbrev Stopped (s t : State) : Prop := ∃ f, t = { s with status := .faulted f }

/-- The state after one register is written and `pc` moves on. -/
abbrev Wrote (d : Reg) (s t : State) : Prop := ∃ v n, t = (s.setReg d v).advance n

/-! ## The families' shared operations -/

theorem alu32_cases {f : Word32 → Word32 → Word32} (h : alu32 f d b s = .next t) : Wrote d s t ∨ Stopped s t := by
  obtain ⟨x, -, h⟩ | ⟨-, h⟩ := readReg_cases h
  · obtain ⟨y, h⟩ | ⟨r, h⟩ := source32_cases h
    · exact .inl ⟨_, _, (Host.Outcome.next.inj h).symm⟩
    · exact .inr ⟨_, h⟩
  · exact .inr ⟨_, h⟩

theorem neg32_cases (h : neg32 d s = .next t) : Wrote d s t ∨ Stopped s t := by
  obtain ⟨x, -, h⟩ | ⟨-, h⟩ := readReg_cases h
  · exact .inl ⟨_, _, (Host.Outcome.next.inj h).symm⟩
  · exact .inr ⟨_, h⟩

theorem move32_cases {f : Word32 → Word32} (h : move32 f d b s = .next t) : Wrote d s t ∨ Stopped s t := by
  obtain ⟨y, h⟩ | ⟨r, h⟩ := source32_cases h
  · exact .inl ⟨_, _, (Host.Outcome.next.inj h).symm⟩
  · exact .inr ⟨_, h⟩

theorem alu64_cases {f : Word64 → Word64 → Word64} (h : alu64 f d b s = .next t) : Wrote d s t ∨ Stopped s t := by
  obtain ⟨x, -, h⟩ | ⟨-, h⟩ := readReg_cases h
  · obtain ⟨y, h⟩ | ⟨r, h⟩ := source64_cases h
    · exact .inl ⟨_, _, (Host.Outcome.next.inj h).symm⟩
    · exact .inr ⟨_, h⟩
  · exact .inr ⟨_, h⟩

theorem neg64_cases (h : neg64 d s = .next t) : Wrote d s t ∨ Stopped s t := by
  obtain ⟨x, -, h⟩ | ⟨-, h⟩ := readReg_cases h
  · exact .inl ⟨_, _, (Host.Outcome.next.inj h).symm⟩
  · exact .inr ⟨_, h⟩

theorem move64_cases {f : Word64 → Word64} (h : move64 f d b s = .next t) : Wrote d s t ∨ Stopped s t := by
  obtain ⟨y, h⟩ | ⟨r, h⟩ := source64_cases h
  · exact .inl ⟨_, _, (Host.Outcome.next.inj h).symm⟩
  · exact .inr ⟨_, h⟩

theorem swapBytes_cases {w : Nat} {f : BitVec w → BitVec w} (h : swapBytes f d s = .next t) :
    Wrote d s t ∨ Stopped s t := by
  obtain ⟨x, -, h⟩ | ⟨-, h⟩ := readReg_cases h
  · exact .inl ⟨_, _, (Host.Outcome.next.inj h).symm⟩
  · exact .inr ⟨_, h⟩

theorem finish_cases {v : Word64} {m : Int} (h : finish s d v m = .next t) : Wrote d s t ∨ Stopped s t :=
  .inl ⟨_, _, (Host.Outcome.next.inj h).symm⟩

theorem platform_finish_cases {o : Option Word64} {q : PlatformQuery} {g : Word64 → Word64} {m : Int}
    (h : (platform o q s fun v => finish s d (g v) m) = .next t) : Wrote d s t ∨ Stopped s t := by
  obtain ⟨v, -, h⟩ | ⟨-, h⟩ := platform_cases h
  · exact finish_cases h
  · exact .inr ⟨_, h⟩

theorem platform_twice_cases {o : Option Word64} {p : Word64 → Option Word64} {q : PlatformQuery}
    {q' : Word64 → PlatformQuery} {g : Word64 → Word64} {m : Int}
    (h : (platform o q s fun v => platform (p v) (q' v) s fun w => finish s d (g w) m) = .next t) :
    Wrote d s t ∨ Stopped s t := by
  obtain ⟨v, -, h⟩ | ⟨-, h⟩ := platform_cases h
  · exact platform_finish_cases h
  · exact .inr ⟨_, h⟩

theorem branch64_cases {c : Cond} (h : branch64 c d b off s = .next t) : (∃ m, t = s.advance m) ∨ Stopped s t := by
  obtain ⟨x, -, h⟩ | ⟨-, h⟩ := readReg_cases h
  · obtain ⟨y, h⟩ | ⟨r, h⟩ := source64_cases h
    · have h := (Host.Outcome.next.inj h).symm
      split at h
      · exact .inl ⟨_, h⟩
      · exact .inl ⟨_, h⟩
    · exact .inr ⟨_, h⟩
  · exact .inr ⟨_, h⟩

theorem branch32_cases {c : Cond} (h : branch32 c d b off s = .next t) : (∃ m, t = s.advance m) ∨ Stopped s t := by
  obtain ⟨x, -, h⟩ | ⟨-, h⟩ := readReg_cases h
  · obtain ⟨y, h⟩ | ⟨r, h⟩ := source32_cases h
    · have h := (Host.Outcome.next.inj h).symm
      split at h
      · exact .inl ⟨_, h⟩
      · exact .inl ⟨_, h⟩
    · exact .inr ⟨_, h⟩
  · exact .inr ⟨_, h⟩

theorem load_cases {ext : Word64 → Word64} (h : load n ext d src off s = .next t) :
    (∃ r ∈ s.params.regions, ∃ ev, Wrote d (s.record r ev) t) ∨ Stopped s t := by
  obtain ⟨x, -, h⟩ | ⟨-, h⟩ := readReg_cases h
  · obtain ⟨r, bytes, hr, -, h⟩ | h := memRead_cases h
    · exact .inl ⟨r, (State.regionFor_some hr).1, _, _, _, (Host.Outcome.next.inj h).symm⟩
    · exact .inr h
  · exact .inr ⟨_, h⟩

/-- The state after an admitted store of `n` bytes. -/
abbrev Stored (s t : State) : Prop :=
  ∃ r ∈ s.params.regions, ∃ (addr : Word64) (n : Nat) (v : Word64) (ev : Event),
    addr.toNat + n ≤ 2 ^ 64 ∧ t = ((s.put addr n v).record r ev).advance 1

theorem storeImmediate_cases (h : storeImmediate n d off imm s = .next t) : Stored s t ∨ Stopped s t := by
  obtain ⟨x, -, h⟩ | ⟨-, h⟩ := readReg_cases h
  · obtain ⟨r, hr, h⟩ | h := memWrite_cases h
    · have ha := State.regionFor_some hr
      exact .inl ⟨r, ha.1, _, _, _, _, ha.2.2.2.2, (Host.Outcome.next.inj h).symm⟩
    · exact .inr h
  · exact .inr ⟨_, h⟩

theorem storeRegister_cases (h : storeRegister n d src off s = .next t) : Stored s t ∨ Stopped s t := by
  obtain ⟨x, -, h⟩ | ⟨-, h⟩ := readReg_cases h
  · obtain ⟨y, -, h⟩ | ⟨-, h⟩ := readReg_cases h
    · obtain ⟨r, hr, h⟩ | h := memWrite_cases h
      · have ha := State.regionFor_some hr
        exact .inl ⟨r, ha.1, _, _, _, _, ha.2.2.2.2, (Host.Outcome.next.inj h).symm⟩
      · exact .inr h
    · exact .inr ⟨_, h⟩
  · exact .inr ⟨_, h⟩

/-- The state after an atomic operation, before its register is written and `pc` moves on. -/
abbrev Committed (s u : State) : Prop :=
  ∃ r ∈ s.params.regions, ∃ (addr : Word64) (n : Nat) (old : Word64) (new : Option Word64),
    addr.toNat + n ≤ 2 ^ 64 ∧ u = s.commit r addr n old new

theorem atomicSimple_cases {f : Word64 → Word64 → Word64} (h : atomicSimple n f d src off s = .next t) :
    (∃ u, Committed s u ∧ t = u.advance 1) ∨ Stopped s t := by
  obtain ⟨x, -, h⟩ | ⟨-, h⟩ := readReg_cases h
  · obtain ⟨y, -, h⟩ | ⟨-, h⟩ := readReg_cases h
    · obtain ⟨r, bytes, hr, -, -, h⟩ | h := atomicUpdate_cases h
      · have ha := State.regionFor_some hr
        exact .inl ⟨_, ⟨r, ha.1, _, _, _, _, ha.2.2.2.2, rfl⟩, (Host.Outcome.next.inj h).symm⟩
      · exact .inr h
    · exact .inr ⟨_, h⟩
  · exact .inr ⟨_, h⟩

theorem atomicFetch_cases {f : Word64 → Word64 → Word64} (h : atomicFetch n f d src off s = .next t) :
    (∃ u, Committed s u ∧ Wrote src u t) ∨ Stopped s t := by
  obtain ⟨x, -, h⟩ | ⟨-, h⟩ := readReg_cases h
  · obtain ⟨y, -, h⟩ | ⟨-, h⟩ := readReg_cases h
    · obtain ⟨r, bytes, hr, -, -, h⟩ | h := atomicUpdate_cases h
      · have ha := State.regionFor_some hr
        exact .inl ⟨_, ⟨r, ha.1, _, _, _, _, ha.2.2.2.2, rfl⟩, _, _, (Host.Outcome.next.inj h).symm⟩
      · exact .inr h
    · exact .inr ⟨_, h⟩
  · exact .inr ⟨_, h⟩

theorem atomicCompare_cases (h : atomicCompare n d src off s = .next t) :
    (∃ u, Committed s u ∧ Wrote 0 u t) ∨ Stopped s t := by
  obtain ⟨x, -, h⟩ | ⟨-, h⟩ := readReg_cases h
  · obtain ⟨y, -, h⟩ | ⟨-, h⟩ := readReg_cases h
    · obtain ⟨c, -, h⟩ | ⟨-, h⟩ := readReg_cases h
      · obtain ⟨r, bytes, hr, -, -, h⟩ | h := atomicUpdate_cases h
        · have ha := State.regionFor_some hr
          exact .inl ⟨_, ⟨r, ha.1, _, _, _, _, ha.2.2.2.2, rfl⟩, _, _, (Host.Outcome.next.inj h).symm⟩
        · exact .inr h
      · exact .inr ⟨_, h⟩
    · exact .inr ⟨_, h⟩
  · exact .inr ⟨_, h⟩

/-- The state after a helper call to which `Helper` returned new registers and bytes. -/
abbrev Answered (s t : State) : Prop :=
  ∃ kind id regs writes, s.helperAnswer kind id = some (.ok regs writes) ∧
    t = (({ s with draws := s.draws + 1 }).install regs writes).advance 1

theorem callPlatform_answered {kind : HelperKind} {id : Word32} (h : callPlatform kind id s = .next t) :
    Answered s t ∨ Stopped s t := by
  obtain ⟨regs, writes, ha, h⟩ | h := callPlatform_cases h
  · exact .inl ⟨kind, id, regs, writes, ha, h⟩
  · exact .inr h

/-- The state after a packet load to which `PacketLoad` returned new registers and bytes. -/
abbrev Delivered (s t : State) : Prop :=
  ∃ mode n imm regs writes, s.packetAnswer mode n imm = .ok regs writes ∧ t = (s.install regs writes).advance 1

theorem packetEffect_cases {mode : PacketMode} {w : Word64}
    (h : packetEffect (s.packetAnswer mode n imm) w s = .next t) : Delivered s t ∨ Stopped s t := by
  unfold packetEffect at h
  split at h
  · next heq => exact .inl ⟨mode, n, imm, _, _, heq, (Host.Outcome.next.inj h).symm⟩
  · exact .inr ⟨_, raise_cases h⟩
  · exact .inr ⟨_, raise_cases h⟩

theorem packetAbs_cases {w : Word64} (h : packetAbs n imm w s = .next t) : Delivered s t ∨ Stopped s t := by
  unfold packetAbs at h
  split at h
  · exact packetEffect_cases h
  · exact .inr ⟨_, raise_cases h⟩

theorem packetInd_cases {w : Word64} (h : packetInd n src imm w s = .next t) : Delivered s t ∨ Stopped s t := by
  unfold packetInd at h
  split at h
  · obtain ⟨x, -, h⟩ | ⟨-, h⟩ := readReg_cases h
    · exact packetEffect_cases h
    · exact .inr ⟨_, h⟩
  · exact .inr ⟨_, raise_cases h⟩

theorem execCallLocal_cases (h : execCallLocal imm s = .next t) :
    (s.depthReached = false ∧ t = s.pushFrame.jumpFar imm) ∨ Stopped s t := by
  unfold execCallLocal at h
  split at h
  · exact .inr ⟨_, raise_cases h⟩
  · next hd => exact .inl ⟨by simpa using hd, (Host.Outcome.next.inj h).symm⟩

theorem execExit_cases (h : execExit s = .next t) :
    (∃ f rest, s.callStack = f :: rest ∧
      t = { s with callStack := rest, regs := returnRegs f.saved s.regs, pc := f.ret }) ∨
    (∃ x, s.callStack = [] ∧ s.regs[(0 : Reg)] = .written x ∧ t = { s with status := .exited x }) ∨ Stopped s t := by
  unfold execExit at h
  split at h
  · next hs =>
    obtain ⟨x, hx, h⟩ | ⟨-, h⟩ := readReg_cases h
    · exact .inr (.inl ⟨x, hs, hx, (Host.Outcome.next.inj h).symm⟩)
    · exact .inr (.inr ⟨_, h⟩)
  · next f rest hs => exact .inl ⟨f, rest, hs, (Host.Outcome.next.inj h).symm⟩

/-! ## Every instruction -/

/-- Everything that executing an instruction can do to the state. -/
inductive Did (i : Instr) (s t : State) : Prop
  | stopped : Stopped s t → Did i s t
  | wrote (d : Reg) : i.writesReg = some d → Wrote d s t → Did i s t
  | moved (m : Int) : t = s.advance m → Did i s t
  | loaded (d : Reg) (r : Region) (ev : Event) : r ∈ s.params.regions → i.writesReg = some d →
      Wrote d (s.record r ev) t → Did i s t
  | stored : Stored s t → Did i s t
  | committed (u : State) : Committed s u → t = u.advance 1 → Did i s t
  | fetched (d : Reg) (u : State) : Committed s u → i.writesReg = some d ∨ d = 0 → Wrote d u t → Did i s t
  | answered : Answered s t → Did i s t
  | delivered : Delivered s t → Did i s t
  | called (imm : Word32) : i = .callLocal imm → s.depthReached = false → t = s.pushFrame.jumpFar imm → Did i s t
  | returned (f : Frame) (rest : List Frame) : i = .exit → s.callStack = f :: rest →
      t = { s with callStack := rest, regs := returnRegs f.saved s.regs, pc := f.ret } → Did i s t
  | ended (x : Word64) : i = .exit → s.callStack = [] → s.regs[(0 : Reg)] = .written x →
      t = { s with status := .exited x } → Did i s t

theorem Did.ofWrote {i : Instr} (hd : i.writesReg = some d) (h : Wrote d s t ∨ Stopped s t) : Did i s t :=
  h.elim (.wrote d hd) .stopped

theorem Did.ofMoved {i : Instr} (h : (∃ m, t = s.advance m) ∨ Stopped s t) : Did i s t :=
  h.elim (fun ⟨m, h⟩ => .moved m h) .stopped

theorem Did.ofLoaded {i : Instr} (hd : i.writesReg = some d)
    (h : (∃ r ∈ s.params.regions, ∃ ev, Wrote d (s.record r ev) t) ∨ Stopped s t) : Did i s t :=
  h.elim (fun ⟨r, hr, ev, h⟩ => .loaded d r ev hr hd h) .stopped

theorem Did.ofStored {i : Instr} (h : Stored s t ∨ Stopped s t) : Did i s t := h.elim .stored .stopped

theorem Did.ofCommitted {i : Instr} (h : (∃ u, Committed s u ∧ t = u.advance 1) ∨ Stopped s t) : Did i s t :=
  h.elim (fun ⟨u, hu, h⟩ => .committed u hu h) .stopped

theorem Did.ofFetched {i : Instr} (hd : i.writesReg = some d ∨ d = 0)
    (h : (∃ u, Committed s u ∧ Wrote d u t) ∨ Stopped s t) : Did i s t :=
  h.elim (fun ⟨u, hu, h⟩ => .fetched d u hu hd h) .stopped

theorem Did.ofAnswered {i : Instr} (h : Answered s t ∨ Stopped s t) : Did i s t := h.elim .answered .stopped

theorem Did.ofDelivered {i : Instr} (h : Delivered s t ∨ Stopped s t) : Did i s t := h.elim .delivered .stopped

/-- Everything an instruction can do where it gives a next state. -/
theorem exec_cases {i : Instr} (h : exec i s = .next t) : Did i s t := by
  cases i with
  | add32K | add32X | sub32K | sub32X | mul32K | mul32X | div32K | div32X | sdiv32K | sdiv32X | or32K | or32X
    | and32K | and32X | lsh32K | lsh32X | rsh32K | rsh32X | mod32K | mod32X | smod32K | smod32X | xor32K | xor32X
    | arsh32K | arsh32X =>
    simp only [exec] at h
    exact .ofWrote rfl (alu32_cases h)
  | neg32 =>
    simp only [exec] at h
    exact .ofWrote rfl (neg32_cases h)
  | mov32K | mov32X | movsx32From8 | movsx32From16 =>
    simp only [exec] at h
    exact .ofWrote rfl (move32_cases h)
  | add64K | add64X | sub64K | sub64X | mul64K | mul64X | div64K | div64X | sdiv64K | sdiv64X | or64K | or64X
    | and64K | and64X | lsh64K | lsh64X | rsh64K | rsh64X | mod64K | mod64X | smod64K | smod64X | xor64K | xor64X
    | arsh64K | arsh64X =>
    simp only [exec] at h
    exact .ofWrote rfl (alu64_cases h)
  | neg64 =>
    simp only [exec] at h
    exact .ofWrote rfl (neg64_cases h)
  | mov64K | mov64X | movsx64From8 | movsx64From16 | movsx64From32 =>
    simp only [exec] at h
    exact .ofWrote rfl (move64_cases h)
  | le16 | le32 | le64 | be16 | be32 | be64 | bswap16 | bswap32 | bswap64 =>
    simp only [exec] at h
    exact .ofWrote rfl (swapBytes_cases h)
  | ja | ja32 =>
    simp only [exec] at h
    exact .moved _ (Host.Outcome.next.inj h).symm
  | jeqK | jeqX | jgtK | jgtX | jgeK | jgeX | jsetK | jsetX | jneK | jneX | jsgtK | jsgtX | jsgeK | jsgeX | jltK
    | jltX | jleK | jleX | jsltK | jsltX | jsleK | jsleX =>
    simp only [exec] at h
    exact .ofMoved (branch64_cases h)
  | jeq32K | jeq32X | jgt32K | jgt32X | jge32K | jge32X | jset32K | jset32X | jne32K | jne32X | jsgt32K | jsgt32X
    | jsge32K | jsge32X | jlt32K | jlt32X | jle32K | jle32X | jslt32K | jslt32X | jsle32K | jsle32X =>
    simp only [exec] at h
    exact .ofMoved (branch32_cases h)
  | callHelper | callBtf =>
    simp only [exec] at h
    exact .ofAnswered (callPlatform_answered h)
  | callLocal =>
    obtain ⟨hd, h⟩ | h := execCallLocal_cases h
    · exact .called _ rfl hd h
    · exact .stopped h
  | exit =>
    obtain ⟨f, rest, hs, h⟩ | ⟨x, hs, hx, h⟩ | h := execExit_cases h
    · exact .returned f rest rfl hs h
    · exact .ended x rfl hs hx h
    · exact .stopped h
  | ldxb | ldxh | ldxw | ldxdw | ldxsb | ldxsh | ldxsw =>
    simp only [exec] at h
    exact .ofLoaded rfl (load_cases h)
  | stb | sth | stw | stdw =>
    simp only [exec] at h
    exact .ofStored (storeImmediate_cases h)
  | stxb | stxh | stxw | stxdw =>
    simp only [exec] at h
    exact .ofStored (storeRegister_cases h)
  | atomicAdd32 | atomicOr32 | atomicAnd32 | atomicXor32 | atomicAdd64 | atomicOr64 | atomicAnd64 | atomicXor64 =>
    simp only [exec] at h
    exact .ofCommitted (atomicSimple_cases h)
  | atomicFetchAdd32 | atomicFetchOr32 | atomicFetchAnd32 | atomicFetchXor32 | atomicXchg32 | atomicFetchAdd64
    | atomicFetchOr64 | atomicFetchAnd64 | atomicFetchXor64 | atomicXchg64 =>
    simp only [exec] at h
    exact .ofFetched (.inl rfl) (atomicFetch_cases h)
  | atomicCmpxchg32 | atomicCmpxchg64 =>
    simp only [exec] at h
    exact .ofFetched (.inr rfl) (atomicCompare_cases h)
  | lddw =>
    simp only [exec] at h
    exact .ofWrote rfl (finish_cases h)
  | ldMapFd | ldVarAddr | ldCodeAddr | ldMapIdx =>
    simp only [exec] at h
    exact .ofWrote rfl (platform_finish_cases h)
  | ldMapValFd | ldMapValIdx =>
    simp only [exec] at h
    exact .ofWrote rfl (platform_twice_cases h)
  | ldabsw | ldabsh | ldabsb =>
    simp only [exec] at h
    exact .ofDelivered (packetAbs_cases h)
  | ldindw | ldindh | ldindb =>
    simp only [exec] at h
    exact .ofDelivered (packetInd_cases h)

end Sys2Proof.Machine
end

