-- ==== Sys2Proof/Laws/Memory.lean ====
section
/-! SUPPORT. The laws of memory: read after write, and that every memory operation keeps the canonical form. -/

namespace Sys2Proof.Machine

@[simp] theorem Memory.get_nil (a : Nat) : Memory.get [] a = none := rfl

/-- Reading after writing one byte, in any memory. -/
theorem Memory.get_set (m : Memory) (a b : Nat) (v : Byte) :
    (m.set a v).get b = if a = b then some v else m.get b := by
  induction m with
  | nil => simp [Memory.set, Memory.get]
  | cons c rest ih =>
    obtain ⟨x, w⟩ := c
    simp only [Memory.set]
    split
    · simp only [Memory.get]
    · split
      · next h => subst h; simp only [Memory.get]; split <;> rfl
      · next h1 h2 =>
        simp only [Memory.get, ih]
        split
        · next h => subst h; rw [if_neg h2]
        · rfl

@[simp] theorem Memory.get_set_self (m : Memory) (a : Nat) (v : Byte) : (m.set a v).get a = some v := by
  simp [Memory.get_set]

@[simp] theorem Memory.get_set_ne (m : Memory) {a b : Nat} (v : Byte) (h : a ≠ b) : (m.set a v).get b = m.get b := by
  simp [Memory.get_set, h]

theorem Memory.get_erase (m : Memory) (a b : Nat) : (m.erase a).get b = if a = b then none else m.get b := by
  induction m with
  | nil => simp [Memory.erase]
  | cons c rest ih =>
    obtain ⟨x, w⟩ := c
    simp only [Memory.erase] at ih
    by_cases hx : x = a
    · subst hx
      simp only [Memory.erase, ne_eq, decide_not, List.filter_cons, decide_true, Bool.not_true, Bool.false_eq_true,
        if_false, Memory.get] at ih ⊢
      rw [ih]
      split <;> rfl
    · simp only [Memory.erase, ne_eq, decide_not, List.filter_cons, hx, decide_false, Bool.not_false, if_true,
        Memory.get] at ih ⊢
      rw [ih]
      by_cases hb : x = b
      · subst hb; rw [if_pos rfl, if_neg (Ne.symm hx), if_pos rfl]
      · simp only [if_neg hb]

/-- Storing bytes leaves every byte outside them alone. -/
theorem Memory.get_store_outside (m : Memory) (a : Nat) (bytes : List Byte) (b : Nat)
    (h : b < a ∨ a + bytes.length ≤ b) : (m.store a bytes).get b = m.get b := by
  induction bytes generalizing m a with
  | nil => rfl
  | cons v rest ih =>
    simp only [Memory.store, List.length_cons] at h ⊢
    rw [ih (m.set a v) (a + 1) (by omega), Memory.get_set_ne]
    omega

/-- Storing bytes makes each of them the byte read at its address. -/
theorem Memory.get_store_inside (m : Memory) (a : Nat) (bytes : List Byte) (i : Nat) (h : i < bytes.length) :
    (m.store a bytes).get (a + i) = some bytes[i] := by
  induction bytes generalizing m a i with
  | nil => simp at h
  | cons v rest ih =>
    cases i with
    | zero =>
      simp only [Memory.store, Nat.add_zero, List.getElem_cons_zero]
      rw [Memory.get_store_outside _ _ _ _ (by omega)]
      simp
    | succ j =>
      simp only [Memory.store, List.getElem_cons_succ]
      rw [show a + (j + 1) = a + 1 + j by omega]
      exact ih (m.set a v) (a + 1) j (by simpa using h)

@[simp] theorem leBytes_length (n : Nat) (v : Word64) : (leBytes n v).length = n := by
  induction n generalizing v with
  | zero => rfl
  | succ n ih => simp [leBytes, ih]

@[simp] theorem hostBytes_length (e : Endian) (n : Nat) (v : Word64) : (hostBytes e n v).length = n := by
  cases e <;> simp [hostBytes]

/-! ## The canonical form -/

theorem Memory.wf_nil : Memory.wf [] := by simp [Memory.wf]

theorem Memory.mem_set {m : Memory} {a : Nat} {v : Byte} {c : Host.Cell} (h : c ∈ m.set a v) : c.1 = a ∨ c ∈ m := by
  induction m with
  | nil => simp [Memory.set] at h; simp [h]
  | cons d rest ih =>
    obtain ⟨x, w⟩ := d
    simp only [Memory.set] at h
    split at h
    · rcases List.mem_cons.mp h with h | h
      · simp [h]
      · exact .inr h
    · split at h
      · rcases List.mem_cons.mp h with h | h
        · simp [h]
        · exact .inr (List.mem_cons_of_mem _ h)
      · rcases List.mem_cons.mp h with h | h
        · simp [h]
        · rcases ih h with h | h
          · exact .inl h
          · exact .inr (List.mem_cons_of_mem _ h)

theorem Memory.wf_set {m : Memory} {a : Nat} (v : Byte) (h : m.wf) (ha : a < 2 ^ 64) : (m.set a v).wf := by
  refine ⟨?_, fun c hc => ?_⟩
  · have hp := h.1
    clear h
    induction m with
    | nil => simp [Memory.set]
    | cons d rest ih =>
      obtain ⟨x, w⟩ := d
      have hr := List.pairwise_cons.mp hp
      simp only [Memory.set]
      split
      · next hax =>
        refine List.pairwise_cons.mpr ⟨fun c hc => ?_, hp⟩
        rcases List.mem_cons.mp hc with hc | hc
        · simpa [hc] using hax
        · exact Nat.lt_trans hax (hr.1 c hc)
      · split
        · next _ hax => subst hax; exact List.pairwise_cons.mpr ⟨hr.1, hr.2⟩
        · next h1 h2 =>
          refine List.pairwise_cons.mpr ⟨fun c hc => ?_, ih hr.2⟩
          rcases Memory.mem_set hc with hc | hc
          · simp only [hc]; omega
          · exact hr.1 c hc
  · rcases Memory.mem_set hc with hc | hc
    · omega
    · exact h.2 c hc

theorem Memory.wf_erase {m : Memory} (a : Nat) (h : m.wf) : (m.erase a).wf :=
  ⟨h.1.filter _, fun c hc => h.2 c (List.mem_filter.mp hc).1⟩

theorem Memory.wf_store {m : Memory} {a : Nat} {bytes : List Byte} (h : m.wf) (ha : a + bytes.length ≤ 2 ^ 64) :
    (m.store a bytes).wf := by
  induction bytes generalizing m a with
  | nil => exact h
  | cons v rest ih =>
    simp only [List.length_cons] at ha
    exact ih (Memory.wf_set v h (by omega)) (by omega)

theorem applyWrite_wf {regions : List Region} {m : Memory} (a : Nat) (v : Option Byte) (h : m.wf) :
    (applyWrite regions m a v).wf := by
  unfold applyWrite
  split
  · next hr =>
    obtain ⟨r, -, hh⟩ := List.any_eq_true.mp hr
    simp only [regionHolds, Bool.and_eq_true, decide_eq_true_eq] at hh
    cases v with
    | some b => exact Memory.wf_set b h (by omega)
    | none => exact Memory.wf_erase a h
  · exact h

theorem applyWrites_wf {regions : List Region} {m : Memory} {writes : List (Nat × Option Byte)} (h : m.wf) :
    (applyWrites regions m writes).wf := by
  induction writes generalizing m with
  | nil => exact h
  | cons c rest ih => exact ih (applyWrite_wf c.1 c.2 h)

theorem applyWrite_get (regions : List Region) (m : Memory) (b : Nat) (v : Option Byte) (a : Nat) :
    (applyWrite regions m b v).get a = if b = a ∧ regions.any (regionHolds · a 1) then v else m.get a := by
  unfold applyWrite
  by_cases hb : b = a
  · subst hb
    cases hr : regions.any (regionHolds · b 1) <;> cases v <;> simp [Memory.get_erase]
  · cases hr : regions.any (regionHolds · b 1) <;> cases v <;> simp [Memory.get_erase, hb]

/-- What the platform's writes leave at an address: what the last write to it says, where a region admits the byte; else
what was there (R385). -/
theorem applyWrites_get (regions : List Region) (m : Memory) (writes : List (Nat × Option Byte)) (a : Nat) :
    (applyWrites regions m writes).get a =
      match if regions.any (regionHolds · a 1) then writes.reverse.find? (·.1 = a) else none with
      | some w => w.2
      | none => m.get a := by
  induction writes generalizing m with
  | nil => simp [applyWrites]
  | cons c rest ih =>
    obtain ⟨b, v⟩ := c
    rw [applyWrites, ih, applyWrite_get]
    cases ha : regions.any (regionHolds · a 1) <;> cases hr : rest.reverse.find? (·.1 = a) <;>
      by_cases hb : b = a <;> simp [List.find?_append, hr, hb]

theorem reset_mem_wf : State.reset.mem.wf := Memory.wf_nil

end Sys2Proof.Machine
end

