-- ==== Sys2Proof/Laws/PerInstr.lean ====
section
/-! SUPPORT. The shape of every instruction's encoding, one lemma per constructor. -/

namespace Sys2Proof.Laws

/-- How an instruction is encoded: `encode` gives as many slots as the instruction takes (R115), its `next_imm` is what
completing its first slot puts back, and one that is not used is zero (R104, R113). -/
def EncodeShape.Statement (i : Instr) : Prop :=
  (∀ e, (encode e i).length = i.slots) ∧ (i.withNext 0).withNext i.nextImm = i ∧ (i.usesNext = false → i.nextImm = 0)

theorem EncodeShape.add32K (d : Reg) (imm : Word32) : EncodeShape.Statement (.add32K d imm) :=
  ⟨fun e => by cases e <;> rfl, rfl, fun _ => rfl⟩
theorem EncodeShape.add32X (d src : Reg) : EncodeShape.Statement (.add32X d src) :=
  ⟨fun e => by cases e <;> rfl, rfl, fun _ => rfl⟩
theorem EncodeShape.sub32K (d : Reg) (imm : Word32) : EncodeShape.Statement (.sub32K d imm) :=
  ⟨fun e => by cases e <;> rfl, rfl, fun _ => rfl⟩
theorem EncodeShape.sub32X (d src : Reg) : EncodeShape.Statement (.sub32X d src) :=
  ⟨fun e => by cases e <;> rfl, rfl, fun _ => rfl⟩
theorem EncodeShape.mul32K (d : Reg) (imm : Word32) : EncodeShape.Statement (.mul32K d imm) :=
  ⟨fun e => by cases e <;> rfl, rfl, fun _ => rfl⟩
theorem EncodeShape.mul32X (d src : Reg) : EncodeShape.Statement (.mul32X d src) :=
  ⟨fun e => by cases e <;> rfl, rfl, fun _ => rfl⟩
theorem EncodeShape.div32K (d : Reg) (imm : Word32) : EncodeShape.Statement (.div32K d imm) :=
  ⟨fun e => by cases e <;> rfl, rfl, fun _ => rfl⟩
theorem EncodeShape.div32X (d src : Reg) : EncodeShape.Statement (.div32X d src) :=
  ⟨fun e => by cases e <;> rfl, rfl, fun _ => rfl⟩
theorem EncodeShape.sdiv32K (d : Reg) (imm : Word32) : EncodeShape.Statement (.sdiv32K d imm) :=
  ⟨fun e => by cases e <;> rfl, rfl, fun _ => rfl⟩
theorem EncodeShape.sdiv32X (d src : Reg) : EncodeShape.Statement (.sdiv32X d src) :=
  ⟨fun e => by cases e <;> rfl, rfl, fun _ => rfl⟩
theorem EncodeShape.or32K (d : Reg) (imm : Word32) : EncodeShape.Statement (.or32K d imm) :=
  ⟨fun e => by cases e <;> rfl, rfl, fun _ => rfl⟩
theorem EncodeShape.or32X (d src : Reg) : EncodeShape.Statement (.or32X d src) :=
  ⟨fun e => by cases e <;> rfl, rfl, fun _ => rfl⟩
theorem EncodeShape.and32K (d : Reg) (imm : Word32) : EncodeShape.Statement (.and32K d imm) :=
  ⟨fun e => by cases e <;> rfl, rfl, fun _ => rfl⟩
theorem EncodeShape.and32X (d src : Reg) : EncodeShape.Statement (.and32X d src) :=
  ⟨fun e => by cases e <;> rfl, rfl, fun _ => rfl⟩
theorem EncodeShape.lsh32K (d : Reg) (imm : Word32) : EncodeShape.Statement (.lsh32K d imm) :=
  ⟨fun e => by cases e <;> rfl, rfl, fun _ => rfl⟩
theorem EncodeShape.lsh32X (d src : Reg) : EncodeShape.Statement (.lsh32X d src) :=
  ⟨fun e => by cases e <;> rfl, rfl, fun _ => rfl⟩
theorem EncodeShape.rsh32K (d : Reg) (imm : Word32) : EncodeShape.Statement (.rsh32K d imm) :=
  ⟨fun e => by cases e <;> rfl, rfl, fun _ => rfl⟩
theorem EncodeShape.rsh32X (d src : Reg) : EncodeShape.Statement (.rsh32X d src) :=
  ⟨fun e => by cases e <;> rfl, rfl, fun _ => rfl⟩
theorem EncodeShape.neg32 (d : Reg) : EncodeShape.Statement (.neg32 d) :=
  ⟨fun e => by cases e <;> rfl, rfl, fun _ => rfl⟩
theorem EncodeShape.mod32K (d : Reg) (imm : Word32) : EncodeShape.Statement (.mod32K d imm) :=
  ⟨fun e => by cases e <;> rfl, rfl, fun _ => rfl⟩
theorem EncodeShape.mod32X (d src : Reg) : EncodeShape.Statement (.mod32X d src) :=
  ⟨fun e => by cases e <;> rfl, rfl, fun _ => rfl⟩
theorem EncodeShape.smod32K (d : Reg) (imm : Word32) : EncodeShape.Statement (.smod32K d imm) :=
  ⟨fun e => by cases e <;> rfl, rfl, fun _ => rfl⟩
theorem EncodeShape.smod32X (d src : Reg) : EncodeShape.Statement (.smod32X d src) :=
  ⟨fun e => by cases e <;> rfl, rfl, fun _ => rfl⟩
theorem EncodeShape.xor32K (d : Reg) (imm : Word32) : EncodeShape.Statement (.xor32K d imm) :=
  ⟨fun e => by cases e <;> rfl, rfl, fun _ => rfl⟩
theorem EncodeShape.xor32X (d src : Reg) : EncodeShape.Statement (.xor32X d src) :=
  ⟨fun e => by cases e <;> rfl, rfl, fun _ => rfl⟩
theorem EncodeShape.mov32K (d : Reg) (imm : Word32) : EncodeShape.Statement (.mov32K d imm) :=
  ⟨fun e => by cases e <;> rfl, rfl, fun _ => rfl⟩
theorem EncodeShape.mov32X (d src : Reg) : EncodeShape.Statement (.mov32X d src) :=
  ⟨fun e => by cases e <;> rfl, rfl, fun _ => rfl⟩
theorem EncodeShape.movsx32From8 (d src : Reg) : EncodeShape.Statement (.movsx32From8 d src) :=
  ⟨fun e => by cases e <;> rfl, rfl, fun _ => rfl⟩
theorem EncodeShape.movsx32From16 (d src : Reg) : EncodeShape.Statement (.movsx32From16 d src) :=
  ⟨fun e => by cases e <;> rfl, rfl, fun _ => rfl⟩
theorem EncodeShape.arsh32K (d : Reg) (imm : Word32) : EncodeShape.Statement (.arsh32K d imm) :=
  ⟨fun e => by cases e <;> rfl, rfl, fun _ => rfl⟩
theorem EncodeShape.arsh32X (d src : Reg) : EncodeShape.Statement (.arsh32X d src) :=
  ⟨fun e => by cases e <;> rfl, rfl, fun _ => rfl⟩
theorem EncodeShape.add64K (d : Reg) (imm : Word32) : EncodeShape.Statement (.add64K d imm) :=
  ⟨fun e => by cases e <;> rfl, rfl, fun _ => rfl⟩
theorem EncodeShape.add64X (d src : Reg) : EncodeShape.Statement (.add64X d src) :=
  ⟨fun e => by cases e <;> rfl, rfl, fun _ => rfl⟩
theorem EncodeShape.sub64K (d : Reg) (imm : Word32) : EncodeShape.Statement (.sub64K d imm) :=
  ⟨fun e => by cases e <;> rfl, rfl, fun _ => rfl⟩
theorem EncodeShape.sub64X (d src : Reg) : EncodeShape.Statement (.sub64X d src) :=
  ⟨fun e => by cases e <;> rfl, rfl, fun _ => rfl⟩
theorem EncodeShape.mul64K (d : Reg) (imm : Word32) : EncodeShape.Statement (.mul64K d imm) :=
  ⟨fun e => by cases e <;> rfl, rfl, fun _ => rfl⟩
theorem EncodeShape.mul64X (d src : Reg) : EncodeShape.Statement (.mul64X d src) :=
  ⟨fun e => by cases e <;> rfl, rfl, fun _ => rfl⟩
theorem EncodeShape.div64K (d : Reg) (imm : Word32) : EncodeShape.Statement (.div64K d imm) :=
  ⟨fun e => by cases e <;> rfl, rfl, fun _ => rfl⟩
theorem EncodeShape.div64X (d src : Reg) : EncodeShape.Statement (.div64X d src) :=
  ⟨fun e => by cases e <;> rfl, rfl, fun _ => rfl⟩
theorem EncodeShape.sdiv64K (d : Reg) (imm : Word32) : EncodeShape.Statement (.sdiv64K d imm) :=
  ⟨fun e => by cases e <;> rfl, rfl, fun _ => rfl⟩
theorem EncodeShape.sdiv64X (d src : Reg) : EncodeShape.Statement (.sdiv64X d src) :=
  ⟨fun e => by cases e <;> rfl, rfl, fun _ => rfl⟩
theorem EncodeShape.or64K (d : Reg) (imm : Word32) : EncodeShape.Statement (.or64K d imm) :=
  ⟨fun e => by cases e <;> rfl, rfl, fun _ => rfl⟩
theorem EncodeShape.or64X (d src : Reg) : EncodeShape.Statement (.or64X d src) :=
  ⟨fun e => by cases e <;> rfl, rfl, fun _ => rfl⟩
theorem EncodeShape.and64K (d : Reg) (imm : Word32) : EncodeShape.Statement (.and64K d imm) :=
  ⟨fun e => by cases e <;> rfl, rfl, fun _ => rfl⟩
theorem EncodeShape.and64X (d src : Reg) : EncodeShape.Statement (.and64X d src) :=
  ⟨fun e => by cases e <;> rfl, rfl, fun _ => rfl⟩
theorem EncodeShape.lsh64K (d : Reg) (imm : Word32) : EncodeShape.Statement (.lsh64K d imm) :=
  ⟨fun e => by cases e <;> rfl, rfl, fun _ => rfl⟩
theorem EncodeShape.lsh64X (d src : Reg) : EncodeShape.Statement (.lsh64X d src) :=
  ⟨fun e => by cases e <;> rfl, rfl, fun _ => rfl⟩
theorem EncodeShape.rsh64K (d : Reg) (imm : Word32) : EncodeShape.Statement (.rsh64K d imm) :=
  ⟨fun e => by cases e <;> rfl, rfl, fun _ => rfl⟩
theorem EncodeShape.rsh64X (d src : Reg) : EncodeShape.Statement (.rsh64X d src) :=
  ⟨fun e => by cases e <;> rfl, rfl, fun _ => rfl⟩
theorem EncodeShape.neg64 (d : Reg) : EncodeShape.Statement (.neg64 d) :=
  ⟨fun e => by cases e <;> rfl, rfl, fun _ => rfl⟩
theorem EncodeShape.mod64K (d : Reg) (imm : Word32) : EncodeShape.Statement (.mod64K d imm) :=
  ⟨fun e => by cases e <;> rfl, rfl, fun _ => rfl⟩
theorem EncodeShape.mod64X (d src : Reg) : EncodeShape.Statement (.mod64X d src) :=
  ⟨fun e => by cases e <;> rfl, rfl, fun _ => rfl⟩
theorem EncodeShape.smod64K (d : Reg) (imm : Word32) : EncodeShape.Statement (.smod64K d imm) :=
  ⟨fun e => by cases e <;> rfl, rfl, fun _ => rfl⟩
theorem EncodeShape.smod64X (d src : Reg) : EncodeShape.Statement (.smod64X d src) :=
  ⟨fun e => by cases e <;> rfl, rfl, fun _ => rfl⟩
theorem EncodeShape.xor64K (d : Reg) (imm : Word32) : EncodeShape.Statement (.xor64K d imm) :=
  ⟨fun e => by cases e <;> rfl, rfl, fun _ => rfl⟩
theorem EncodeShape.xor64X (d src : Reg) : EncodeShape.Statement (.xor64X d src) :=
  ⟨fun e => by cases e <;> rfl, rfl, fun _ => rfl⟩
theorem EncodeShape.mov64K (d : Reg) (imm : Word32) : EncodeShape.Statement (.mov64K d imm) :=
  ⟨fun e => by cases e <;> rfl, rfl, fun _ => rfl⟩
theorem EncodeShape.mov64X (d src : Reg) : EncodeShape.Statement (.mov64X d src) :=
  ⟨fun e => by cases e <;> rfl, rfl, fun _ => rfl⟩
theorem EncodeShape.movsx64From8 (d src : Reg) : EncodeShape.Statement (.movsx64From8 d src) :=
  ⟨fun e => by cases e <;> rfl, rfl, fun _ => rfl⟩
theorem EncodeShape.movsx64From16 (d src : Reg) : EncodeShape.Statement (.movsx64From16 d src) :=
  ⟨fun e => by cases e <;> rfl, rfl, fun _ => rfl⟩
theorem EncodeShape.movsx64From32 (d src : Reg) : EncodeShape.Statement (.movsx64From32 d src) :=
  ⟨fun e => by cases e <;> rfl, rfl, fun _ => rfl⟩
theorem EncodeShape.arsh64K (d : Reg) (imm : Word32) : EncodeShape.Statement (.arsh64K d imm) :=
  ⟨fun e => by cases e <;> rfl, rfl, fun _ => rfl⟩
theorem EncodeShape.arsh64X (d src : Reg) : EncodeShape.Statement (.arsh64X d src) :=
  ⟨fun e => by cases e <;> rfl, rfl, fun _ => rfl⟩
theorem EncodeShape.le16 (d : Reg) : EncodeShape.Statement (.le16 d) :=
  ⟨fun e => by cases e <;> rfl, rfl, fun _ => rfl⟩
theorem EncodeShape.le32 (d : Reg) : EncodeShape.Statement (.le32 d) :=
  ⟨fun e => by cases e <;> rfl, rfl, fun _ => rfl⟩
theorem EncodeShape.le64 (d : Reg) : EncodeShape.Statement (.le64 d) :=
  ⟨fun e => by cases e <;> rfl, rfl, fun _ => rfl⟩
theorem EncodeShape.be16 (d : Reg) : EncodeShape.Statement (.be16 d) :=
  ⟨fun e => by cases e <;> rfl, rfl, fun _ => rfl⟩
theorem EncodeShape.be32 (d : Reg) : EncodeShape.Statement (.be32 d) :=
  ⟨fun e => by cases e <;> rfl, rfl, fun _ => rfl⟩
theorem EncodeShape.be64 (d : Reg) : EncodeShape.Statement (.be64 d) :=
  ⟨fun e => by cases e <;> rfl, rfl, fun _ => rfl⟩
theorem EncodeShape.bswap16 (d : Reg) : EncodeShape.Statement (.bswap16 d) :=
  ⟨fun e => by cases e <;> rfl, rfl, fun _ => rfl⟩
theorem EncodeShape.bswap32 (d : Reg) : EncodeShape.Statement (.bswap32 d) :=
  ⟨fun e => by cases e <;> rfl, rfl, fun _ => rfl⟩
theorem EncodeShape.bswap64 (d : Reg) : EncodeShape.Statement (.bswap64 d) :=
  ⟨fun e => by cases e <;> rfl, rfl, fun _ => rfl⟩
theorem EncodeShape.ja (off : Off) : EncodeShape.Statement (.ja off) :=
  ⟨fun e => by cases e <;> rfl, rfl, fun _ => rfl⟩
theorem EncodeShape.ja32 (imm : Word32) : EncodeShape.Statement (.ja32 imm) :=
  ⟨fun e => by cases e <;> rfl, rfl, fun _ => rfl⟩
theorem EncodeShape.jeqK (d : Reg) (imm : Word32) (off : Off) : EncodeShape.Statement (.jeqK d imm off) :=
  ⟨fun e => by cases e <;> rfl, rfl, fun _ => rfl⟩
theorem EncodeShape.jeqX (d src : Reg) (off : Off) : EncodeShape.Statement (.jeqX d src off) :=
  ⟨fun e => by cases e <;> rfl, rfl, fun _ => rfl⟩
theorem EncodeShape.jgtK (d : Reg) (imm : Word32) (off : Off) : EncodeShape.Statement (.jgtK d imm off) :=
  ⟨fun e => by cases e <;> rfl, rfl, fun _ => rfl⟩
theorem EncodeShape.jgtX (d src : Reg) (off : Off) : EncodeShape.Statement (.jgtX d src off) :=
  ⟨fun e => by cases e <;> rfl, rfl, fun _ => rfl⟩
theorem EncodeShape.jgeK (d : Reg) (imm : Word32) (off : Off) : EncodeShape.Statement (.jgeK d imm off) :=
  ⟨fun e => by cases e <;> rfl, rfl, fun _ => rfl⟩
theorem EncodeShape.jgeX (d src : Reg) (off : Off) : EncodeShape.Statement (.jgeX d src off) :=
  ⟨fun e => by cases e <;> rfl, rfl, fun _ => rfl⟩
theorem EncodeShape.jsetK (d : Reg) (imm : Word32) (off : Off) : EncodeShape.Statement (.jsetK d imm off) :=
  ⟨fun e => by cases e <;> rfl, rfl, fun _ => rfl⟩
theorem EncodeShape.jsetX (d src : Reg) (off : Off) : EncodeShape.Statement (.jsetX d src off) :=
  ⟨fun e => by cases e <;> rfl, rfl, fun _ => rfl⟩
theorem EncodeShape.jneK (d : Reg) (imm : Word32) (off : Off) : EncodeShape.Statement (.jneK d imm off) :=
  ⟨fun e => by cases e <;> rfl, rfl, fun _ => rfl⟩
theorem EncodeShape.jneX (d src : Reg) (off : Off) : EncodeShape.Statement (.jneX d src off) :=
  ⟨fun e => by cases e <;> rfl, rfl, fun _ => rfl⟩
theorem EncodeShape.jsgtK (d : Reg) (imm : Word32) (off : Off) : EncodeShape.Statement (.jsgtK d imm off) :=
  ⟨fun e => by cases e <;> rfl, rfl, fun _ => rfl⟩
theorem EncodeShape.jsgtX (d src : Reg) (off : Off) : EncodeShape.Statement (.jsgtX d src off) :=
  ⟨fun e => by cases e <;> rfl, rfl, fun _ => rfl⟩
theorem EncodeShape.jsgeK (d : Reg) (imm : Word32) (off : Off) : EncodeShape.Statement (.jsgeK d imm off) :=
  ⟨fun e => by cases e <;> rfl, rfl, fun _ => rfl⟩
theorem EncodeShape.jsgeX (d src : Reg) (off : Off) : EncodeShape.Statement (.jsgeX d src off) :=
  ⟨fun e => by cases e <;> rfl, rfl, fun _ => rfl⟩
theorem EncodeShape.jltK (d : Reg) (imm : Word32) (off : Off) : EncodeShape.Statement (.jltK d imm off) :=
  ⟨fun e => by cases e <;> rfl, rfl, fun _ => rfl⟩
theorem EncodeShape.jltX (d src : Reg) (off : Off) : EncodeShape.Statement (.jltX d src off) :=
  ⟨fun e => by cases e <;> rfl, rfl, fun _ => rfl⟩
theorem EncodeShape.jleK (d : Reg) (imm : Word32) (off : Off) : EncodeShape.Statement (.jleK d imm off) :=
  ⟨fun e => by cases e <;> rfl, rfl, fun _ => rfl⟩
theorem EncodeShape.jleX (d src : Reg) (off : Off) : EncodeShape.Statement (.jleX d src off) :=
  ⟨fun e => by cases e <;> rfl, rfl, fun _ => rfl⟩
theorem EncodeShape.jsltK (d : Reg) (imm : Word32) (off : Off) : EncodeShape.Statement (.jsltK d imm off) :=
  ⟨fun e => by cases e <;> rfl, rfl, fun _ => rfl⟩
theorem EncodeShape.jsltX (d src : Reg) (off : Off) : EncodeShape.Statement (.jsltX d src off) :=
  ⟨fun e => by cases e <;> rfl, rfl, fun _ => rfl⟩
theorem EncodeShape.jsleK (d : Reg) (imm : Word32) (off : Off) : EncodeShape.Statement (.jsleK d imm off) :=
  ⟨fun e => by cases e <;> rfl, rfl, fun _ => rfl⟩
theorem EncodeShape.jsleX (d src : Reg) (off : Off) : EncodeShape.Statement (.jsleX d src off) :=
  ⟨fun e => by cases e <;> rfl, rfl, fun _ => rfl⟩
theorem EncodeShape.jeq32K (d : Reg) (imm : Word32) (off : Off) : EncodeShape.Statement (.jeq32K d imm off) :=
  ⟨fun e => by cases e <;> rfl, rfl, fun _ => rfl⟩
theorem EncodeShape.jeq32X (d src : Reg) (off : Off) : EncodeShape.Statement (.jeq32X d src off) :=
  ⟨fun e => by cases e <;> rfl, rfl, fun _ => rfl⟩
theorem EncodeShape.jgt32K (d : Reg) (imm : Word32) (off : Off) : EncodeShape.Statement (.jgt32K d imm off) :=
  ⟨fun e => by cases e <;> rfl, rfl, fun _ => rfl⟩
theorem EncodeShape.jgt32X (d src : Reg) (off : Off) : EncodeShape.Statement (.jgt32X d src off) :=
  ⟨fun e => by cases e <;> rfl, rfl, fun _ => rfl⟩
theorem EncodeShape.jge32K (d : Reg) (imm : Word32) (off : Off) : EncodeShape.Statement (.jge32K d imm off) :=
  ⟨fun e => by cases e <;> rfl, rfl, fun _ => rfl⟩
theorem EncodeShape.jge32X (d src : Reg) (off : Off) : EncodeShape.Statement (.jge32X d src off) :=
  ⟨fun e => by cases e <;> rfl, rfl, fun _ => rfl⟩
theorem EncodeShape.jset32K (d : Reg) (imm : Word32) (off : Off) : EncodeShape.Statement (.jset32K d imm off) :=
  ⟨fun e => by cases e <;> rfl, rfl, fun _ => rfl⟩
theorem EncodeShape.jset32X (d src : Reg) (off : Off) : EncodeShape.Statement (.jset32X d src off) :=
  ⟨fun e => by cases e <;> rfl, rfl, fun _ => rfl⟩
theorem EncodeShape.jne32K (d : Reg) (imm : Word32) (off : Off) : EncodeShape.Statement (.jne32K d imm off) :=
  ⟨fun e => by cases e <;> rfl, rfl, fun _ => rfl⟩
theorem EncodeShape.jne32X (d src : Reg) (off : Off) : EncodeShape.Statement (.jne32X d src off) :=
  ⟨fun e => by cases e <;> rfl, rfl, fun _ => rfl⟩
theorem EncodeShape.jsgt32K (d : Reg) (imm : Word32) (off : Off) : EncodeShape.Statement (.jsgt32K d imm off) :=
  ⟨fun e => by cases e <;> rfl, rfl, fun _ => rfl⟩
theorem EncodeShape.jsgt32X (d src : Reg) (off : Off) : EncodeShape.Statement (.jsgt32X d src off) :=
  ⟨fun e => by cases e <;> rfl, rfl, fun _ => rfl⟩
theorem EncodeShape.jsge32K (d : Reg) (imm : Word32) (off : Off) : EncodeShape.Statement (.jsge32K d imm off) :=
  ⟨fun e => by cases e <;> rfl, rfl, fun _ => rfl⟩
theorem EncodeShape.jsge32X (d src : Reg) (off : Off) : EncodeShape.Statement (.jsge32X d src off) :=
  ⟨fun e => by cases e <;> rfl, rfl, fun _ => rfl⟩
theorem EncodeShape.jlt32K (d : Reg) (imm : Word32) (off : Off) : EncodeShape.Statement (.jlt32K d imm off) :=
  ⟨fun e => by cases e <;> rfl, rfl, fun _ => rfl⟩
theorem EncodeShape.jlt32X (d src : Reg) (off : Off) : EncodeShape.Statement (.jlt32X d src off) :=
  ⟨fun e => by cases e <;> rfl, rfl, fun _ => rfl⟩
theorem EncodeShape.jle32K (d : Reg) (imm : Word32) (off : Off) : EncodeShape.Statement (.jle32K d imm off) :=
  ⟨fun e => by cases e <;> rfl, rfl, fun _ => rfl⟩
theorem EncodeShape.jle32X (d src : Reg) (off : Off) : EncodeShape.Statement (.jle32X d src off) :=
  ⟨fun e => by cases e <;> rfl, rfl, fun _ => rfl⟩
theorem EncodeShape.jslt32K (d : Reg) (imm : Word32) (off : Off) : EncodeShape.Statement (.jslt32K d imm off) :=
  ⟨fun e => by cases e <;> rfl, rfl, fun _ => rfl⟩
theorem EncodeShape.jslt32X (d src : Reg) (off : Off) : EncodeShape.Statement (.jslt32X d src off) :=
  ⟨fun e => by cases e <;> rfl, rfl, fun _ => rfl⟩
theorem EncodeShape.jsle32K (d : Reg) (imm : Word32) (off : Off) : EncodeShape.Statement (.jsle32K d imm off) :=
  ⟨fun e => by cases e <;> rfl, rfl, fun _ => rfl⟩
theorem EncodeShape.jsle32X (d src : Reg) (off : Off) : EncodeShape.Statement (.jsle32X d src off) :=
  ⟨fun e => by cases e <;> rfl, rfl, fun _ => rfl⟩
theorem EncodeShape.callHelper (imm : Word32) : EncodeShape.Statement (.callHelper imm) :=
  ⟨fun e => by cases e <;> rfl, rfl, fun _ => rfl⟩
theorem EncodeShape.callLocal (imm : Word32) : EncodeShape.Statement (.callLocal imm) :=
  ⟨fun e => by cases e <;> rfl, rfl, fun _ => rfl⟩
theorem EncodeShape.callBtf (imm : Word32) : EncodeShape.Statement (.callBtf imm) :=
  ⟨fun e => by cases e <;> rfl, rfl, fun _ => rfl⟩
theorem EncodeShape.exit : EncodeShape.Statement .exit :=
  ⟨fun e => by cases e <;> rfl, rfl, fun _ => rfl⟩
theorem EncodeShape.ldxb (d src : Reg) (off : Off) : EncodeShape.Statement (.ldxb d src off) :=
  ⟨fun e => by cases e <;> rfl, rfl, fun _ => rfl⟩
theorem EncodeShape.ldxh (d src : Reg) (off : Off) : EncodeShape.Statement (.ldxh d src off) :=
  ⟨fun e => by cases e <;> rfl, rfl, fun _ => rfl⟩
theorem EncodeShape.ldxw (d src : Reg) (off : Off) : EncodeShape.Statement (.ldxw d src off) :=
  ⟨fun e => by cases e <;> rfl, rfl, fun _ => rfl⟩
theorem EncodeShape.ldxdw (d src : Reg) (off : Off) : EncodeShape.Statement (.ldxdw d src off) :=
  ⟨fun e => by cases e <;> rfl, rfl, fun _ => rfl⟩
theorem EncodeShape.ldxsb (d src : Reg) (off : Off) : EncodeShape.Statement (.ldxsb d src off) :=
  ⟨fun e => by cases e <;> rfl, rfl, fun _ => rfl⟩
theorem EncodeShape.ldxsh (d src : Reg) (off : Off) : EncodeShape.Statement (.ldxsh d src off) :=
  ⟨fun e => by cases e <;> rfl, rfl, fun _ => rfl⟩
theorem EncodeShape.ldxsw (d src : Reg) (off : Off) : EncodeShape.Statement (.ldxsw d src off) :=
  ⟨fun e => by cases e <;> rfl, rfl, fun _ => rfl⟩
theorem EncodeShape.stb (d : Reg) (off : Off) (imm : Word32) : EncodeShape.Statement (.stb d off imm) :=
  ⟨fun e => by cases e <;> rfl, rfl, fun _ => rfl⟩
theorem EncodeShape.sth (d : Reg) (off : Off) (imm : Word32) : EncodeShape.Statement (.sth d off imm) :=
  ⟨fun e => by cases e <;> rfl, rfl, fun _ => rfl⟩
theorem EncodeShape.stw (d : Reg) (off : Off) (imm : Word32) : EncodeShape.Statement (.stw d off imm) :=
  ⟨fun e => by cases e <;> rfl, rfl, fun _ => rfl⟩
theorem EncodeShape.stdw (d : Reg) (off : Off) (imm : Word32) : EncodeShape.Statement (.stdw d off imm) :=
  ⟨fun e => by cases e <;> rfl, rfl, fun _ => rfl⟩
theorem EncodeShape.stxb (d src : Reg) (off : Off) : EncodeShape.Statement (.stxb d src off) :=
  ⟨fun e => by cases e <;> rfl, rfl, fun _ => rfl⟩
theorem EncodeShape.stxh (d src : Reg) (off : Off) : EncodeShape.Statement (.stxh d src off) :=
  ⟨fun e => by cases e <;> rfl, rfl, fun _ => rfl⟩
theorem EncodeShape.stxw (d src : Reg) (off : Off) : EncodeShape.Statement (.stxw d src off) :=
  ⟨fun e => by cases e <;> rfl, rfl, fun _ => rfl⟩
theorem EncodeShape.stxdw (d src : Reg) (off : Off) : EncodeShape.Statement (.stxdw d src off) :=
  ⟨fun e => by cases e <;> rfl, rfl, fun _ => rfl⟩
theorem EncodeShape.atomicAdd32 (d src : Reg) (off : Off) : EncodeShape.Statement (.atomicAdd32 d src off) :=
  ⟨fun e => by cases e <;> rfl, rfl, fun _ => rfl⟩
theorem EncodeShape.atomicFetchAdd32 (d src : Reg) (off : Off) : EncodeShape.Statement (.atomicFetchAdd32 d src off) :=
  ⟨fun e => by cases e <;> rfl, rfl, fun _ => rfl⟩
theorem EncodeShape.atomicOr32 (d src : Reg) (off : Off) : EncodeShape.Statement (.atomicOr32 d src off) :=
  ⟨fun e => by cases e <;> rfl, rfl, fun _ => rfl⟩
theorem EncodeShape.atomicFetchOr32 (d src : Reg) (off : Off) : EncodeShape.Statement (.atomicFetchOr32 d src off) :=
  ⟨fun e => by cases e <;> rfl, rfl, fun _ => rfl⟩
theorem EncodeShape.atomicAnd32 (d src : Reg) (off : Off) : EncodeShape.Statement (.atomicAnd32 d src off) :=
  ⟨fun e => by cases e <;> rfl, rfl, fun _ => rfl⟩
theorem EncodeShape.atomicFetchAnd32 (d src : Reg) (off : Off) : EncodeShape.Statement (.atomicFetchAnd32 d src off) :=
  ⟨fun e => by cases e <;> rfl, rfl, fun _ => rfl⟩
theorem EncodeShape.atomicXor32 (d src : Reg) (off : Off) : EncodeShape.Statement (.atomicXor32 d src off) :=
  ⟨fun e => by cases e <;> rfl, rfl, fun _ => rfl⟩
theorem EncodeShape.atomicFetchXor32 (d src : Reg) (off : Off) : EncodeShape.Statement (.atomicFetchXor32 d src off) :=
  ⟨fun e => by cases e <;> rfl, rfl, fun _ => rfl⟩
theorem EncodeShape.atomicXchg32 (d src : Reg) (off : Off) : EncodeShape.Statement (.atomicXchg32 d src off) :=
  ⟨fun e => by cases e <;> rfl, rfl, fun _ => rfl⟩
theorem EncodeShape.atomicCmpxchg32 (d src : Reg) (off : Off) : EncodeShape.Statement (.atomicCmpxchg32 d src off) :=
  ⟨fun e => by cases e <;> rfl, rfl, fun _ => rfl⟩
theorem EncodeShape.atomicAdd64 (d src : Reg) (off : Off) : EncodeShape.Statement (.atomicAdd64 d src off) :=
  ⟨fun e => by cases e <;> rfl, rfl, fun _ => rfl⟩
theorem EncodeShape.atomicFetchAdd64 (d src : Reg) (off : Off) : EncodeShape.Statement (.atomicFetchAdd64 d src off) :=
  ⟨fun e => by cases e <;> rfl, rfl, fun _ => rfl⟩
theorem EncodeShape.atomicOr64 (d src : Reg) (off : Off) : EncodeShape.Statement (.atomicOr64 d src off) :=
  ⟨fun e => by cases e <;> rfl, rfl, fun _ => rfl⟩
theorem EncodeShape.atomicFetchOr64 (d src : Reg) (off : Off) : EncodeShape.Statement (.atomicFetchOr64 d src off) :=
  ⟨fun e => by cases e <;> rfl, rfl, fun _ => rfl⟩
theorem EncodeShape.atomicAnd64 (d src : Reg) (off : Off) : EncodeShape.Statement (.atomicAnd64 d src off) :=
  ⟨fun e => by cases e <;> rfl, rfl, fun _ => rfl⟩
theorem EncodeShape.atomicFetchAnd64 (d src : Reg) (off : Off) : EncodeShape.Statement (.atomicFetchAnd64 d src off) :=
  ⟨fun e => by cases e <;> rfl, rfl, fun _ => rfl⟩
theorem EncodeShape.atomicXor64 (d src : Reg) (off : Off) : EncodeShape.Statement (.atomicXor64 d src off) :=
  ⟨fun e => by cases e <;> rfl, rfl, fun _ => rfl⟩
theorem EncodeShape.atomicFetchXor64 (d src : Reg) (off : Off) : EncodeShape.Statement (.atomicFetchXor64 d src off) :=
  ⟨fun e => by cases e <;> rfl, rfl, fun _ => rfl⟩
theorem EncodeShape.atomicXchg64 (d src : Reg) (off : Off) : EncodeShape.Statement (.atomicXchg64 d src off) :=
  ⟨fun e => by cases e <;> rfl, rfl, fun _ => rfl⟩
theorem EncodeShape.atomicCmpxchg64 (d src : Reg) (off : Off) : EncodeShape.Statement (.atomicCmpxchg64 d src off) :=
  ⟨fun e => by cases e <;> rfl, rfl, fun _ => rfl⟩
theorem EncodeShape.lddw (d : Reg) (imm next : Word32) : EncodeShape.Statement (.lddw d imm next) :=
  ⟨fun e => by cases e <;> rfl, rfl, by simp [Instr.usesNext, Instr.isWide, encodeFields]⟩
theorem EncodeShape.ldMapFd (d : Reg) (imm : Word32) : EncodeShape.Statement (.ldMapFd d imm) :=
  ⟨fun e => by cases e <;> rfl, rfl, fun _ => rfl⟩
theorem EncodeShape.ldMapValFd (d : Reg) (imm next : Word32) : EncodeShape.Statement (.ldMapValFd d imm next) :=
  ⟨fun e => by cases e <;> rfl, rfl, by simp [Instr.usesNext, Instr.isWide, encodeFields]⟩
theorem EncodeShape.ldVarAddr (d : Reg) (imm : Word32) : EncodeShape.Statement (.ldVarAddr d imm) :=
  ⟨fun e => by cases e <;> rfl, rfl, fun _ => rfl⟩
theorem EncodeShape.ldCodeAddr (d : Reg) (imm : Word32) : EncodeShape.Statement (.ldCodeAddr d imm) :=
  ⟨fun e => by cases e <;> rfl, rfl, fun _ => rfl⟩
theorem EncodeShape.ldMapIdx (d : Reg) (imm : Word32) : EncodeShape.Statement (.ldMapIdx d imm) :=
  ⟨fun e => by cases e <;> rfl, rfl, fun _ => rfl⟩
theorem EncodeShape.ldMapValIdx (d : Reg) (imm next : Word32) : EncodeShape.Statement (.ldMapValIdx d imm next) :=
  ⟨fun e => by cases e <;> rfl, rfl, by simp [Instr.usesNext, Instr.isWide, encodeFields]⟩
theorem EncodeShape.ldabsw (imm : Word32) : EncodeShape.Statement (.ldabsw imm) :=
  ⟨fun e => by cases e <;> rfl, rfl, fun _ => rfl⟩
theorem EncodeShape.ldabsh (imm : Word32) : EncodeShape.Statement (.ldabsh imm) :=
  ⟨fun e => by cases e <;> rfl, rfl, fun _ => rfl⟩
theorem EncodeShape.ldabsb (imm : Word32) : EncodeShape.Statement (.ldabsb imm) :=
  ⟨fun e => by cases e <;> rfl, rfl, fun _ => rfl⟩
theorem EncodeShape.ldindw (src : Reg) (imm : Word32) : EncodeShape.Statement (.ldindw src imm) :=
  ⟨fun e => by cases e <;> rfl, rfl, fun _ => rfl⟩
theorem EncodeShape.ldindh (src : Reg) (imm : Word32) : EncodeShape.Statement (.ldindh src imm) :=
  ⟨fun e => by cases e <;> rfl, rfl, fun _ => rfl⟩
theorem EncodeShape.ldindb (src : Reg) (imm : Word32) : EncodeShape.Statement (.ldindb src imm) :=
  ⟨fun e => by cases e <;> rfl, rfl, fun _ => rfl⟩

end Sys2Proof.Laws
end

