-- ==== Sys2Proof/Tests/Slice0.lean ====
section
/-! SUPPORT. Tests: what the spec's own encodings and vectors give, ill-formed terms that the checks refuse, and for
every statement with hypotheses a concrete state and operands that meet them. -/

namespace Sys2Proof.Tests

open Sys2Proof.Machine

/-- A slot from its eight bytes in program order, written as one hexadecimal number. -/
def bytes (n : Nat) : Slot :=
  let b := fun k => BitVec.ofNat 8 (n / 2 ^ (8 * k))
  ⟨b 7, b 6, b 5, b 4, b 3, b 2, b 1, b 0⟩

/-- The slots decode to the instruction, and to nothing more. -/
def decodesTo (e : Endian) (slots : List Nat) (i : Instr) : Bool :=
  match decode e (slots.map bytes) with
  | .ok (j, []) => decide (j = i)
  | _ => false

/-- The slots are no instruction, by the named check. -/
def refusedAs (slots : List Nat) (r : Reject) : Bool :=
  match decode .little (slots.map bytes) with
  | .error q => decide (q = r)
  | .ok _ => false

/-- Registers by number; the others are unwritten, as in the spec's vectors. -/
def regsOf (l : List (Nat × Nat)) : Regs :=
  Vector.ofFn fun r : Reg => match l.lookup r.val with
    | some v => .written (BitVec.ofNat 64 v)
    | none => .unwritten

/-- A state with these registers under the default parameters, on the given host and without any region. -/
def start (e : Endian) (regs : List (Nat × Nat)) : State :=
  { State.reset with regs := regsOf regs, params := { Params.default with endian := e, regions := [] } }

/-- An instruction, the registers before and the registers it changes. -/
abbrev Row := Instr × List (Nat × Nat) × List (Nat × Nat)

/-- The instruction changes exactly those registers and goes on `len` slots. -/
def leaves (s : State) (r : Row) (len : Int) : Bool :=
  match exec r.1 s with
  | .next t => decide (t.regs = regsOf (r.2.2 ++ r.2.1) ∧ t.pc = len ∧ t.status = .running)
  | _ => false

def Row.holds (e : Endian) (r : Row) : Bool := leaves (start e r.2.1) r 1

/-- The instruction, executed at pc 4, changes no register and goes to the given slot. -/
def jumpsTo (i : Instr) (regs : List (Nat × Nat)) (pc : Int) : Bool :=
  match exec i { start .little regs with pc := 4 } with
  | .next t => decide (t.regs = regsOf regs ∧ t.pc = pc ∧ t.status = .running)
  | _ => false

/-- The bytes of memory, by address. -/
def memOf (l : List (Nat × Nat)) : Memory := l.foldl (fun m c => m.set c.1 (BitVec.ofNat 8 c.2)) []

/-- The regions of the load, store and atomic vectors: private, readable and writable but for the last. -/
def accessRegions : List Region :=
  [⟨0x1000, 0x100, true, true, false⟩, ⟨0x2000, 0x100, true, true, false⟩, ⟨0x3000, 0x100, true, false, false⟩]

/-- Bytes at rising addresses: the first address, how many, and the bytes in that order as one hexadecimal number. -/
abbrev Run := Nat × Nat × Nat

def Run.cells (r : Run) : List (Nat × Nat) :=
  (List.range r.2.1).map fun k => (r.1 + k, r.2.2 / 256 ^ (r.2.1 - 1 - k) % 256)

/-- The bytes that the load and store vectors start with. -/
def accessBytes : Run := (0x1010, 8, 0x8899aabbccddeeff)

/-- A state with these registers and bytes, and the regions of the vectors. -/
def memState (e : Endian) (regs mem : List (Nat × Nat)) : State :=
  { State.reset with
    regs := regsOf regs, mem := memOf mem, params := { Params.default with endian := e, regions := accessRegions } }

/-- The instruction changes exactly those registers, and leaves those bytes and otherwise the ones it found. -/
def accesses (e : Endian) (i : Instr) (regs : List (Nat × Nat)) (mem : Run) (changed : List (Nat × Nat)) (after : Run) :
    Bool :=
  match exec i (memState e regs mem.cells) with
  | .next t => decide (t.regs = regsOf (changed ++ regs) ∧ t.mem = memOf (mem.cells ++ after.cells) ∧ t.pc = 1 ∧
      t.status = .running)
  | _ => false

/-- A state with the platform functions of the 64-bit immediate vectors. -/
def platformState (regs : List (Nat × Nat)) : State :=
  { start .little regs with
    params := { Params.default with
      mapByFd := [(5, 0x7000)], mapByIdx := [(0, 0x7000), (1, 0x7100)], mapVal := [(0x7000, 0x9000), (0x7100, 0xA000)]
      varAddr := [(7, 0xB000)], codeAddr := [((0, 3), 0x400020), ((0, 0xffffffff), 0x400000)] } }

def platformRow (r : Row) : Bool := leaves (platformState r.2.1) r 2

/-! ## Decoding: for every constructor, the example bytes of its rule on a little-endian host -/

/-- The class ALU instructions and their example bytes (R210 to R240). -/
def wordsAlu32 : List (List Nat × Instr) :=
  [([0x0401000002000000], .add32K 1 2), ([0x0c21000000000000], .add32X 1 2), ([0x1401000002000000], .sub32K 1 2),
   ([0x1c21000000000000], .sub32X 1 2), ([0x24010000feffffff], .mul32K 1 0xfffffffe),
   ([0x2c21000000000000], .mul32X 1 2), ([0x34010000feffffff], .div32K 1 0xfffffffe),
   ([0x3c21000000000000], .div32X 1 2), ([0x3401010002000000], .sdiv32K 1 2), ([0x3c21010000000000], .sdiv32X 1 2),
   ([0x4401000000000080], .or32K 1 0x80000000), ([0x4c21000000000000], .or32X 1 2),
   ([0x54010000f0000080], .and32K 1 0x800000f0), ([0x5c21000000000000], .and32X 1 2),
   ([0x6401000021000000], .lsh32K 1 33), ([0x6c21000000000000], .lsh32X 1 2), ([0x7401000021000000], .rsh32K 1 33),
   ([0x7c21000000000000], .rsh32X 1 2), ([0x8401000000000000], .neg32 1), ([0x9401000003000000], .mod32K 1 3),
   ([0x9c21000000000000], .mod32X 1 2), ([0x9401010003000000], .smod32K 1 3), ([0x9c21010000000000], .smod32X 1 2),
   ([0xa4010000ffffffff], .xor32K 1 0xffffffff), ([0xac21000000000000], .xor32X 1 2),
   ([0xb401000001000080], .mov32K 1 0x80000001), ([0xbc21000000000000], .mov32X 1 2),
   ([0xbc21080000000000], .movsx32From8 1 2), ([0xbc21100000000000], .movsx32From16 1 2),
   ([0xc401000021000000], .arsh32K 1 33), ([0xcc21000000000000], .arsh32X 1 2)]

theorem test_decode_alu32 : wordsAlu32.all (fun r => decodesTo .little r.1 r.2) = true := by decide

/-- The class ALU64 instructions and their example bytes (R251 to R282). -/
def wordsAlu64 : List (List Nat × Instr) :=
  [([0x0701000002000000], .add64K 1 2), ([0x0f21000000000000], .add64X 1 2), ([0x1701000002000000], .sub64K 1 2),
   ([0x1f21000000000000], .sub64X 1 2), ([0x27010000feffffff], .mul64K 1 0xfffffffe),
   ([0x2f21000000000000], .mul64X 1 2), ([0x37010000feffffff], .div64K 1 0xfffffffe),
   ([0x3f21000000000000], .div64X 1 2), ([0x3701010002000000], .sdiv64K 1 2), ([0x3f21010000000000], .sdiv64X 1 2),
   ([0x4701000000000080], .or64K 1 0x80000000), ([0x4f21000000000000], .or64X 1 2),
   ([0x57010000f0000080], .and64K 1 0x800000f0), ([0x5f21000000000000], .and64X 1 2),
   ([0x6701000021000000], .lsh64K 1 33), ([0x6f21000000000000], .lsh64X 1 2), ([0x7701000021000000], .rsh64K 1 33),
   ([0x7f21000000000000], .rsh64X 1 2), ([0x8701000000000000], .neg64 1), ([0x9701000003000000], .mod64K 1 3),
   ([0x9f21000000000000], .mod64X 1 2), ([0x9701010003000000], .smod64K 1 3), ([0x9f21010000000000], .smod64X 1 2),
   ([0xa7010000ffffffff], .xor64K 1 0xffffffff), ([0xaf21000000000000], .xor64X 1 2),
   ([0xb701000001000080], .mov64K 1 0x80000001), ([0xbf21000000000000], .mov64X 1 2),
   ([0xbf21080000000000], .movsx64From8 1 2), ([0xbf21100000000000], .movsx64From16 1 2),
   ([0xbf21200000000000], .movsx64From32 1 2), ([0xc701000021000000], .arsh64K 1 33),
   ([0xcf21000000000000], .arsh64X 1 2)]

theorem test_decode_alu64 : wordsAlu64.all (fun r => decodesTo .little r.1 r.2) = true := by decide

/-- The byte swap instructions and their example bytes (R301 to R309). -/
def wordsSwap : List (List Nat × Instr) :=
  [([0xd401000010000000], .le16 1), ([0xd401000020000000], .le32 1), ([0xd401000040000000], .le64 1),
   ([0xdc01000010000000], .be16 1), ([0xdc01000020000000], .be32 1), ([0xdc01000040000000], .be64 1),
   ([0xd701000010000000], .bswap16 1), ([0xd701000020000000], .bswap32 1), ([0xd701000040000000], .bswap64 1)]

theorem test_decode_swap : wordsSwap.all (fun r => decodesTo .little r.1 r.2) = true := by decide

/-- The class JMP instructions and their example bytes (R324, R326 to R347). -/
def wordsJmp : List (List Nat × Instr) :=
  [([0x0500fdff00000000], .ja 0xfffd), ([0x15010500ffffffff], .jeqK 1 0xffffffff 5),
   ([0x1d21050000000000], .jeqX 1 2 5), ([0x25010500ffffffff], .jgtK 1 0xffffffff 5),
   ([0x2d21050000000000], .jgtX 1 2 5), ([0x35010500ffffffff], .jgeK 1 0xffffffff 5),
   ([0x3d21050000000000], .jgeX 1 2 5), ([0x45010500ffffffff], .jsetK 1 0xffffffff 5),
   ([0x4d21050000000000], .jsetX 1 2 5), ([0x55010500ffffffff], .jneK 1 0xffffffff 5),
   ([0x5d21050000000000], .jneX 1 2 5), ([0x65010500ffffffff], .jsgtK 1 0xffffffff 5),
   ([0x6d21050000000000], .jsgtX 1 2 5), ([0x75010500ffffffff], .jsgeK 1 0xffffffff 5),
   ([0x7d21050000000000], .jsgeX 1 2 5), ([0xa5010500ffffffff], .jltK 1 0xffffffff 5),
   ([0xad21050000000000], .jltX 1 2 5), ([0xb5010500ffffffff], .jleK 1 0xffffffff 5),
   ([0xbd21050000000000], .jleX 1 2 5), ([0xc5010500ffffffff], .jsltK 1 0xffffffff 5),
   ([0xcd21050000000000], .jsltX 1 2 5), ([0xd5010500ffffffff], .jsleK 1 0xffffffff 5),
   ([0xdd21050000000000], .jsleX 1 2 5)]

theorem test_decode_jmp : wordsJmp.all (fun r => decodesTo .little r.1 r.2) = true := by decide

/-- The class JMP32 instructions and their example bytes (R325, R348 to R369). -/
def wordsJmp32 : List (List Nat × Instr) :=
  [([0x0600000000000100], .ja32 0x10000), ([0x16010500ffffffff], .jeq32K 1 0xffffffff 5),
   ([0x1e21050000000000], .jeq32X 1 2 5), ([0x26010500ffffffff], .jgt32K 1 0xffffffff 5),
   ([0x2e21050000000000], .jgt32X 1 2 5), ([0x36010500ffffffff], .jge32K 1 0xffffffff 5),
   ([0x3e21050000000000], .jge32X 1 2 5), ([0x46010500ffffffff], .jset32K 1 0xffffffff 5),
   ([0x4e21050000000000], .jset32X 1 2 5), ([0x56010500ffffffff], .jne32K 1 0xffffffff 5),
   ([0x5e21050000000000], .jne32X 1 2 5), ([0x66010500ffffffff], .jsgt32K 1 0xffffffff 5),
   ([0x6e21050000000000], .jsgt32X 1 2 5), ([0x76010500ffffffff], .jsge32K 1 0xffffffff 5),
   ([0x7e21050000000000], .jsge32X 1 2 5), ([0xa6010500ffffffff], .jlt32K 1 0xffffffff 5),
   ([0xae21050000000000], .jlt32X 1 2 5), ([0xb6010500ffffffff], .jle32K 1 0xffffffff 5),
   ([0xbe21050000000000], .jle32X 1 2 5), ([0xc6010500ffffffff], .jslt32K 1 0xffffffff 5),
   ([0xce21050000000000], .jslt32X 1 2 5), ([0xd6010500ffffffff], .jsle32K 1 0xffffffff 5),
   ([0xde21050000000000], .jsle32X 1 2 5)]

theorem test_decode_jmp32 : wordsJmp32.all (fun r => decodesTo .little r.1 r.2) = true := by decide

/-- The call and exit instructions and their example bytes (R381 to R384). -/
def wordsCall : List (List Nat × Instr) :=
  [([0x8500000006000000], .callHelper 6), ([0x8510000002000000], .callLocal 2),
   ([0x8520000034120000], .callBtf 0x1234), ([0x9500000000000000], .exit)]

theorem test_decode_call : wordsCall.all (fun r => decodesTo .little r.1 r.2) = true := by decide

/-- The load and store instructions and their example bytes (R402 to R416). -/
def wordsLoad : List (List Nat × Instr) :=
  [([0x7110080000000000], .ldxb 0 1 8), ([0x6910080000000000], .ldxh 0 1 8), ([0x6110080000000000], .ldxw 0 1 8),
   ([0x7910080000000000], .ldxdw 0 1 8), ([0x9110080000000000], .ldxsb 0 1 8), ([0x8910080000000000], .ldxsh 0 1 8),
   ([0x8110080000000000], .ldxsw 0 1 8), ([0x7201100033221180], .stb 1 16 0x80112233),
   ([0x6a01100033221180], .sth 1 16 0x80112233), ([0x6201100033221180], .stw 1 16 0x80112233),
   ([0x7a01100033221180], .stdw 1 16 0x80112233), ([0x7321100000000000], .stxb 1 2 16),
   ([0x6b21100000000000], .stxh 1 2 16), ([0x6321100000000000], .stxw 1 2 16), ([0x7b21100000000000], .stxdw 1 2 16)]

theorem test_decode_load : wordsLoad.all (fun r => decodesTo .little r.1 r.2) = true := by decide

/-- The atomic instructions and their example bytes (R432 to R451). -/
def wordsAtomic : List (List Nat × Instr) :=
  [([0xc321080000000000], .atomicAdd32 1 2 8), ([0xc321080001000000], .atomicFetchAdd32 1 2 8),
   ([0xc321080040000000], .atomicOr32 1 2 8), ([0xc321080041000000], .atomicFetchOr32 1 2 8),
   ([0xc321080050000000], .atomicAnd32 1 2 8), ([0xc321080051000000], .atomicFetchAnd32 1 2 8),
   ([0xc3210800a0000000], .atomicXor32 1 2 8), ([0xc3210800a1000000], .atomicFetchXor32 1 2 8),
   ([0xc3210800e1000000], .atomicXchg32 1 2 8), ([0xc3210800f1000000], .atomicCmpxchg32 1 2 8),
   ([0xdb21080000000000], .atomicAdd64 1 2 8), ([0xdb21080001000000], .atomicFetchAdd64 1 2 8),
   ([0xdb21080040000000], .atomicOr64 1 2 8), ([0xdb21080041000000], .atomicFetchOr64 1 2 8),
   ([0xdb21080050000000], .atomicAnd64 1 2 8), ([0xdb21080051000000], .atomicFetchAnd64 1 2 8),
   ([0xdb210800a0000000], .atomicXor64 1 2 8), ([0xdb210800a1000000], .atomicFetchXor64 1 2 8),
   ([0xdb210800e1000000], .atomicXchg64 1 2 8), ([0xdb210800f1000000], .atomicCmpxchg64 1 2 8)]

theorem test_decode_atomic : wordsAtomic.all (fun r => decodesTo .little r.1 r.2) = true := by decide

/-- The 64-bit immediate instructions and their example bytes (R471 to R477). -/
def wordsImm64 : List (List Nat × Instr) :=
  [([0x1801000088776655, 0x0000000044332211], .lddw 1 0x55667788 0x11223344),
   ([0x1811000005000000, 0x0000000000000000], .ldMapFd 1 5),
   ([0x1821000005000000, 0x0000000010000000], .ldMapValFd 1 5 16),
   ([0x1831000007000000, 0x0000000000000000], .ldVarAddr 1 7),
   ([0x1841000003000000, 0x0000000000000000], .ldCodeAddr 1 3),
   ([0x1851000001000000, 0x0000000000000000], .ldMapIdx 1 1),
   ([0x1861000001000000, 0x0000000010000000], .ldMapValIdx 1 1 16)]

theorem test_decode_imm64 : wordsImm64.all (fun r => decodesTo .little r.1 r.2) = true := by decide

/-- The packet instructions and their example bytes (R491 to R496). -/
def wordsPacket : List (List Nat × Instr) :=
  [([0x200000000e000000], .ldabsw 14), ([0x280000000e000000], .ldabsh 14), ([0x300000000e000000], .ldabsb 14),
   ([0x403000000e000000], .ldindw 3 14), ([0x483000000e000000], .ldindh 3 14), ([0x503000000e000000], .ldindb 3 14)]

theorem test_decode_packet : wordsPacket.all (fun r => decodesTo .little r.1 r.2) = true := by decide

/-- Encoding vectors E1 to E25 and EW1 to EW8 (95_test_vectors.md): little-endian bytes, big-endian bytes,
instruction. -/
def wordsBoth : List (List Nat × List Nat × Instr) :=
  [([0x0701000044332211], [0x0710000011223344], .add64K 1 0x11223344),
   ([0x0c93000000000000], [0x0c39000000000000], .add32X 3 9),
   ([0xb7000000ffffffff], [0xb7000000ffffffff], .mov64K 0 0xffffffff),
   ([0x3f52010000000000], [0x3f25000100000000], .sdiv64X 2 5),
   ([0xbf44200000000000], [0xbf44002000000000], .movsx64From32 4 4),
   ([0xd407000010000000], [0xd470000000000010], .le16 7), ([0xd709000040000000], [0xd790000000000040], .bswap64 9),
   ([0x0500feff00000000], [0x0500fffe00000000], .ja 0xfffe),
   ([0x0600000045230100], [0x0600000000012345], .ja32 0x12345),
   ([0x6506ff7ffeffffff], [0x65607ffffffffffe], .jsgtK 6 0xfffffffe 0x7fff),
   ([0x5e21008000000000], [0x5e12800000000000], .jne32X 1 2 0x8000),
   ([0x850000000c000000], [0x850000000000000c], .callHelper 0xc),
   ([0x85100000fcffffff], [0x85010000fffffffc], .callLocal 0xfffffffc),
   ([0x8520000001100000], [0x8502000000001001], .callBtf 0x1001), ([0x9500000000000000], [0x9500000000000000], .exit),
   ([0x6110040000000000], [0x6101000400000000], .ldxw 0 1 0x4),
   ([0x89a5faff00000000], [0x895afffa00000000], .ldxsh 5 10 0xfffa),
   ([0x720affff7f000000], [0x72a0ffff0000007f], .stb 10 0xffff 0x7f),
   ([0x7a021000ffffffff], [0x7a200010ffffffff], .stdw 2 0x10 0xffffffff),
   ([0x7b1af8ff00000000], [0x7ba1fff800000000], .stxdw 10 1 0xfff8),
   ([0xc321080000000000], [0xc312000800000000], .atomicAdd32 1 2 0x8),
   ([0xdb43f0ffa1000000], [0xdb34fff0000000a1], .atomicFetchXor64 3 4 0xfff0),
   ([0xdb760000f1000000], [0xdb670000000000f1], .atomicCmpxchg64 6 7 0),
   ([0x200000000e000000], [0x200000000000000e], .ldabsw 0xe),
   ([0x4830000002000000], [0x4803000000000002], .ldindh 3 2),
   ([0x1801000088776655, 0x0000000044332211], [0x1810000055667788, 0x0000000011223344], .lddw 1 0x55667788 0x11223344),
   ([0x18000000ffffffff, 0x0000000000000000], [0x18000000ffffffff, 0x0000000000000000], .lddw 0 0xffffffff 0),
   ([0x1812000005000000, 0x0000000000000000], [0x1821000000000005, 0x0000000000000000], .ldMapFd 2 5),
   ([0x1823000005000000, 0x0000000010000000], [0x1832000000000005, 0x0000000000000010], .ldMapValFd 3 5 0x10),
   ([0x1834000007000000, 0x0000000000000000], [0x1843000000000007, 0x0000000000000000], .ldVarAddr 4 7),
   ([0x1845000003000000, 0x0000000000000000], [0x1854000000000003, 0x0000000000000000], .ldCodeAddr 5 3),
   ([0x1856000001000000, 0x0000000000000000], [0x1865000000000001, 0x0000000000000000], .ldMapIdx 6 1),
   ([0x1867000001000000, 0x00000000f8ffffff], [0x1876000000000001, 0x00000000fffffff8], .ldMapValIdx 7 1 0xfffffff8)]

theorem test_decode_both_hosts :
    wordsBoth.all (fun r => decodesTo .little r.1 r.2.2 && decodesTo .big r.2.1 r.2.2) = true := by decide

theorem test_encode_both_hosts : wordsBoth.all (fun r =>
    encode .little r.2.2 == r.1.map bytes && encode .big r.2.2 == r.2.1.map bytes) = true := by decide

/-- Words that must not decode (N1 to N54 but N20, 95_test_vectors.md), each with the check that refuses it; and two
slots that are not there. -/
def wordsRefused : List (List Nat × Reject) :=
  [([0x0000000000000000], .noSuchOpcode), ([0x0800000000000000], .noSuchOpcode),
   ([0xff00000000000000], .noSuchOpcode), ([0x8d00000000000000], .noSuchOpcode),
   ([0x8600000000000000], .noSuchOpcode), ([0x9d00000000000000], .noSuchOpcode),
   ([0x0e00000000000000], .noSuchOpcode), ([0xe400000000000000], .noSuchOpcode),
   ([0xe500000000000000], .noSuchOpcode), ([0x8c00000000000000], .noSuchOpcode), ([0x0721000001000000], .unusedField),
   ([0x0f21000001000000], .unusedField), ([0x0f21010000000000], .badSelector), ([0x3f21020000000000], .badSelector),
   ([0xbc21200000000000], .badSelector), ([0xb701080000000000], .badSelector), ([0xb70b000000000000], .badRegister),
   ([0x0ff1000000000000], .badRegister), ([0xd401000008000000], .badSelector), ([0xd701000000000000], .badSelector),
   ([0xdf01000010000000], .noSuchOpcode), ([0xd431000020000000], .unusedField), ([0x0501010000000000], .unusedField),
   ([0x0500010005000000], .unusedField), ([0x0600010001000000], .unusedField), ([0x1d21010001000000], .unusedField),
   ([0x1521010000000000], .unusedField), ([0x8530000001000000], .badSelector), ([0x8510010001000000], .unusedField),
   ([0x9501000000000000], .unusedField), ([0x9500000001000000], .unusedField), ([0x6121000001000000], .unusedField),
   ([0x6221000000000000], .unusedField), ([0x4121000000000000], .noSuchOpcode), ([0x9921000000000000], .noSuchOpcode),
   ([0x9221000000000000], .noSuchOpcode), ([0xd321000000000000], .noSuchOpcode),
   ([0xcb21000000000000], .noSuchOpcode), ([0xc221000000000000], .noSuchOpcode), ([0xc3210000e0000000], .badSelector),
   ([0xc3210000f0000000], .badSelector), ([0xdb21000010000000], .badSelector), ([0xdb21000001010000], .badSelector),
   ([0x1871000000000000, 0x0000000000000000], .badSelector), ([0x1801010000000000, 0x0000000000000000], .unusedField),
   ([0x1801000005000000, 0x9500000000000000], .badSecondSlot),
   ([0x1801000005000000, 0x0000010000000000], .badSecondSlot),
   ([0x1811000005000000, 0x0000000001000000], .unusedNextImm),
   ([0x181b000005000000, 0x0000000000000000], .badRegister), ([], .truncated), ([0x1801000088776655], .truncated)]

theorem test_decode_refuses : wordsRefused.all (fun r => refusedAs r.1 r.2) = true := by decide

/-! ## One step: vectors of 96_test_vectors_2.md, at most two for an instruction -/

/-- Vectors of class ALU between V1 and V57: instruction, registers before, registers changed. -/
def stepsAlu32A : List Row :=
  [(.add32K 1 0xfffffff9, [(1, 0xaaaaaaaa00000005)], [(1, 0xfffffffe)]),
   (.add32X 1 2, [(1, 0xaaaaaaaaffffffff), (2, 0x5555555500000001)], [(1, 0)]),
   (.add32X 3 3, [(3, 0x40000001)], [(3, 0x80000002)]), (.sub32K 1 0xffffffff, [(1, 0xaaaaaaaa0000000a)], [(1, 0xb)]),
   (.sub32X 1 2, [(1, 0xaaaaaaaa00000000), (2, 0x5555555500000001)], [(1, 0xffffffff)]),
   (.sub32X 4 4, [(4, 0xaaaaaaaa00001234)], [(4, 0)]),
   (.mul32K 1 0xfffffffe, [(1, 0xaaaaaaaa00000003)], [(1, 0xfffffffa)]),
   (.mul32X 1 2, [(1, 0xaaaaaaaa00010001), (2, 0x5555555500010001)], [(1, 0x20001)]),
   (.div32K 1 0, [(1, 0xaaaaaaaa00000007)], [(1, 0)]), (.div32K 1 0xffffffff, [(1, 0xaaaaaaaaffffffff)], [(1, 1)]),
   (.div32X 1 2, [(1, 0xaaaaaaaa00000007), (2, 0x5555555500000002)], [(1, 3)]),
   (.div32X 1 2, [(1, 0xaaaaaaaa00000007), (2, 0x5555555500000000)], [(1, 0)]),
   (.sdiv32K 1 3, [(1, 0xaaaaaaaafffffff3)], [(1, 0xfffffffc)]),
   (.sdiv32X 1 2, [(1, 0xaaaaaaaafffffff9), (2, 0x5555555500000002)], [(1, 0xfffffffd)]),
   (.sdiv32X 1 2, [(1, 0xaaaaaaaa80000000), (2, 0x55555555ffffffff)], [(1, 0x80000000)]),
   (.or32K 1 0xffffff00, [(1, 0xaaaaaaaa00000000)], [(1, 0xffffff00)]),
   (.or32X 1 2, [(1, 0xaaaaaaaa0000f0f0), (2, 0x5555555500000ff0)], [(1, 0xfff0)]),
   (.and32K 1 0xfffffff0, [(1, 0xaaaaaaaaffffffff)], [(1, 0xfffffff0)]),
   (.and32X 1 2, [(1, 0xaaaaaaaa0000ffff), (2, 0x5555555500000ff0)], [(1, 0xff0)]),
   (.lsh32K 1 4, [(1, 0xaaaaaaaaffffffff)], [(1, 0xfffffff0)]),
   (.lsh32K 1 0xffffffff, [(1, 0xaaaaaaaa00000001)], [(1, 0x80000000)]),
   (.lsh32X 1 2, [(1, 0xaaaaaaaa00000001), (2, 0x555555550000001f)], [(1, 0x80000000)]),
   (.lsh32X 1 2, [(1, 0xaaaaaaaa00000003), (2, 0x5555555500000021)], [(1, 6)])]

theorem test_step_alu32_a : stepsAlu32A.all (Row.holds .little) = true := by decide

/-- Vectors of class ALU between V1 and V57: instruction, registers before, registers changed. -/
def stepsAlu32B : List Row :=
  [(.rsh32K 1 4, [(1, 0xaaaaaaaaffffffff)], [(1, 0xfffffff)]),
   (.rsh32X 1 2, [(1, 0xaaaaaaaa80000000), (2, 0x555555550000001f)], [(1, 1)]),
   (.rsh32X 1 2, [(1, 0xaaaaaaaa80000000), (2, 0x5555555500000020)], [(1, 0x80000000)]),
   (.neg32 1, [(1, 0xaaaaaaaa00000001)], [(1, 0xffffffff)]), (.neg32 1, [(1, 0xaaaaaaaa00000000)], [(1, 0)]),
   (.mod32K 1 0, [(1, 0xaaaaaaaa00000007)], [(1, 7)]), (.mod32K 1 0xffffffff, [(1, 0xaaaaaaaaffffffff)], [(1, 0)]),
   (.mod32X 1 2, [(1, 0xaaaaaaaa00000007), (2, 0x5555555500000003)], [(1, 1)]),
   (.mod32X 1 2, [(1, 0xaaaaaaaa00000007), (2, 0x5555555500000000)], [(1, 7)]),
   (.smod32K 1 3, [(1, 0xaaaaaaaafffffff3)], [(1, 0xffffffff)]),
   (.smod32X 1 2, [(1, 0xaaaaaaaafffffff3), (2, 0x5555555500000003)], [(1, 0xffffffff)]),
   (.smod32X 1 2, [(1, 0xaaaaaaaa80000000), (2, 0x55555555ffffffff)], [(1, 0)]),
   (.xor32K 1 0xffffffff, [(1, 0xaaaaaaaa00000000)], [(1, 0xffffffff)]),
   (.xor32X 1 2, [(1, 0xaaaaaaaa0000ff00), (2, 0x5555555500000ff0)], [(1, 0xf0f0)]),
   (.mov32K 1 0xfffffffe, [], [(1, 0xfffffffe)]), (.mov32X 1 2, [(2, 0x1122334455667788)], [(1, 0x55667788)]),
   (.movsx32From8 1 2, [(2, 0x1122334455667788)], [(1, 0xffffff88)]),
   (.movsx32From8 1 2, [(2, 0xffffffffffffff7f)], [(1, 0x7f)]),
   (.movsx32From16 1 2, [(2, 0x112233445566f788)], [(1, 0xfffff788)]),
   (.movsx32From16 1 2, [(2, 0xffffffffffff7fff)], [(1, 0x7fff)]),
   (.arsh32K 1 2, [(1, 0xaaaaaaaafffffff0)], [(1, 0xfffffffc)]),
   (.arsh32X 1 2, [(1, 0xaaaaaaaa80000000), (2, 0x555555550000001f)], [(1, 0xffffffff)]),
   (.arsh32X 1 2, [(1, 0xaaaaaaaa80000000), (2, 0x5555555500000020)], [(1, 0x80000000)])]

theorem test_step_alu32_b : stepsAlu32B.all (Row.holds .little) = true := by decide

/-- Vectors of class ALU64 between V58 and V116: instruction, registers before, registers changed. -/
def stepsAlu64A : List Row :=
  [(.add64K 1 0xfffffff9, [(1, 5)], [(1, 0xfffffffffffffffe)]),
   (.add64X 1 2, [(1, 0xffffffffffffffff), (2, 1)], [(1, 0)]),
   (.add64X 3 3, [(3, 0x4000000000000001)], [(3, 0x8000000000000002)]),
   (.sub64K 1 0xffffffff, [(1, 0xa)], [(1, 0xb)]), (.sub64X 1 2, [(1, 0), (2, 1)], [(1, 0xffffffffffffffff)]),
   (.sub64X 4 4, [(4, 0x1234)], [(4, 0)]), (.mul64K 1 0xfffffffe, [(1, 3)], [(1, 0xfffffffffffffffa)]),
   (.mul64X 1 2, [(1, 0x100000001), (2, 0x100000001)], [(1, 0x200000001)]), (.div64K 1 0, [(1, 7)], [(1, 0)]),
   (.div64K 1 0xffffffff, [(1, 0xffffffffffffffff)], [(1, 1)]), (.div64X 1 2, [(1, 7), (2, 2)], [(1, 3)]),
   (.div64X 1 2, [(1, 7), (2, 0)], [(1, 0)]), (.sdiv64K 1 3, [(1, 0xfffffffffffffff3)], [(1, 0xfffffffffffffffc)]),
   (.sdiv64X 1 2, [(1, 0xfffffffffffffff9), (2, 2)], [(1, 0xfffffffffffffffd)]),
   (.sdiv64X 1 2, [(1, 0x8000000000000000), (2, 0xffffffffffffffff)], []),
   (.or64K 1 0xffffff00, [(1, 0)], [(1, 0xffffffffffffff00)]), (.or64X 1 2, [(1, 0xf0f0), (2, 0xff0)], [(1, 0xfff0)]),
   (.and64K 1 0xfffffff0, [(1, 0xffffffffffffffff)], [(1, 0xfffffffffffffff0)]),
   (.and64X 1 2, [(1, 0xffff), (2, 0xff0)], [(1, 0xff0)]),
   (.lsh64K 1 4, [(1, 0xffffffffffffffff)], [(1, 0xfffffffffffffff0)]),
   (.lsh64K 1 0xffffffff, [(1, 1)], [(1, 0x8000000000000000)]),
   (.lsh64X 1 2, [(1, 1), (2, 0x3f)], [(1, 0x8000000000000000)]), (.lsh64X 1 2, [(1, 3), (2, 0x41)], [(1, 6)]),
   (.rsh64K 1 4, [(1, 0xffffffffffffffff)], [(1, 0xfffffffffffffff)])]

theorem test_step_alu64_a : stepsAlu64A.all (Row.holds .little) = true := by decide

/-- Vectors of class ALU64 between V58 and V116: instruction, registers before, registers changed. -/
def stepsAlu64B : List Row :=
  [(.rsh64X 1 2, [(1, 0x8000000000000000), (2, 0x3f)], [(1, 1)]),
   (.rsh64X 1 2, [(1, 0x8000000000000000), (2, 0x40)], []), (.neg64 1, [(1, 1)], [(1, 0xffffffffffffffff)]),
   (.neg64 1, [(1, 0)], []), (.mod64K 1 0, [(1, 7)], []), (.mod64K 1 0xffffffff, [(1, 0xffffffffffffffff)], [(1, 0)]),
   (.mod64X 1 2, [(1, 7), (2, 3)], [(1, 1)]), (.mod64X 1 2, [(1, 7), (2, 0)], []),
   (.smod64K 1 3, [(1, 0xfffffffffffffff3)], [(1, 0xffffffffffffffff)]),
   (.smod64X 1 2, [(1, 0xfffffffffffffff3), (2, 3)], [(1, 0xffffffffffffffff)]),
   (.smod64X 1 2, [(1, 0x8000000000000000), (2, 0xffffffffffffffff)], [(1, 0)]),
   (.xor64K 1 0xffffffff, [(1, 0)], [(1, 0xffffffffffffffff)]),
   (.xor64X 1 2, [(1, 0xff00), (2, 0xff0)], [(1, 0xf0f0)]), (.mov64K 1 0xfffffffe, [], [(1, 0xfffffffffffffffe)]),
   (.mov64X 1 2, [(2, 0x1122334455667788)], [(1, 0x1122334455667788)]),
   (.movsx64From8 1 2, [(2, 0x1122334455667788)], [(1, 0xffffffffffffff88)]),
   (.movsx64From8 1 2, [(2, 0xffffffffffffff7f)], [(1, 0x7f)]),
   (.movsx64From16 1 2, [(2, 0x112233445566f788)], [(1, 0xfffffffffffff788)]),
   (.movsx64From16 1 2, [(2, 0xffffffffffff7fff)], [(1, 0x7fff)]),
   (.movsx64From32 1 2, [(2, 0x11223344d5667788)], [(1, 0xffffffffd5667788)]),
   (.movsx64From32 1 2, [(2, 0xffffffff7fffffff)], [(1, 0x7fffffff)]),
   (.arsh64K 1 2, [(1, 0xfffffffffffffff0)], [(1, 0xfffffffffffffffc)]),
   (.arsh64X 1 2, [(1, 0x8000000000000000), (2, 0x3f)], [(1, 0xffffffffffffffff)]),
   (.arsh64X 1 2, [(1, 0x8000000000000000), (2, 0x40)], [])]

theorem test_step_alu64_b : stepsAlu64B.all (Row.holds .little) = true := by decide

/-- Byte-swap vectors between V117 and V134 on a little-endian host. -/
def stepsSwapLittle : List Row :=
  [(.le16 1, [(1, 0x1122334455667788)], [(1, 0x7788)]), (.le32 1, [(1, 0x1122334455667788)], [(1, 0x55667788)]),
   (.le64 1, [(1, 0x1122334455667788)], []), (.be16 1, [(1, 0x1122334455667788)], [(1, 0x8877)]),
   (.be32 1, [(1, 0x1122334455667788)], [(1, 0x88776655)]),
   (.be64 1, [(1, 0x1122334455667788)], [(1, 0x8877665544332211)]),
   (.bswap16 1, [(1, 0x1122334455667788)], [(1, 0x8877)]), (.bswap32 1, [(1, 0x1122334455667788)], [(1, 0x88776655)]),
   (.bswap64 1, [(1, 0x1122334455667788)], [(1, 0x8877665544332211)])]

theorem test_step_swap_little : stepsSwapLittle.all (Row.holds .little) = true := by decide

/-- Byte-swap vectors between V117 and V134 on a big-endian host. -/
def stepsSwapBig : List Row :=
  [(.le16 1, [(1, 0x1122334455667788)], [(1, 0x8877)]), (.le32 1, [(1, 0x1122334455667788)], [(1, 0x88776655)]),
   (.le64 1, [(1, 0x1122334455667788)], [(1, 0x8877665544332211)]),
   (.be16 1, [(1, 0x1122334455667788)], [(1, 0x7788)]), (.be32 1, [(1, 0x1122334455667788)], [(1, 0x55667788)]),
   (.be64 1, [(1, 0x1122334455667788)], []), (.bswap16 1, [(1, 0x1122334455667788)], [(1, 0x8877)]),
   (.bswap32 1, [(1, 0x1122334455667788)], [(1, 0x88776655)]),
   (.bswap64 1, [(1, 0x1122334455667788)], [(1, 0x8877665544332211)])]

theorem test_step_swap_big : stepsSwapBig.all (Row.holds .big) = true := by decide

/-- Vectors of class JMP between V135 and V213, executed at pc 4: instruction, registers, pc after. -/
def stepsJmp : List (Instr × List (Nat × Nat) × Int) :=
  [(.ja 0x2, [], 7), (.ja 0xfffa, [], -1), (.jeqK 1 0xffffffff 0x2, [(1, 0xffffffffffffffff)], 7),
   (.jeqK 1 0xffffffff 0x2, [(1, 0xffffffff)], 5), (.jeqX 1 2 0x2, [(1, 5), (2, 5)], 7),
   (.jeqX 1 2 0xffff, [(1, 5), (2, 5)], 4), (.jgtK 1 0xfffffffe 0x2, [(1, 0xffffffffffffffff)], 7),
   (.jgtX 1 2 0x2, [(1, 0xffffffffffffffff), (2, 0)], 7), (.jgtX 1 2 0x2, [(1, 5), (2, 5)], 5),
   (.jgeK 1 0 0x2, [(1, 0)], 7), (.jgeX 1 2 0x2, [(1, 5), (2, 5)], 7), (.jgeX 1 2 0x2, [(1, 4), (2, 5)], 5),
   (.jsetK 1 0xffffffff 0x2, [(1, 0x8000000000000000)], 7), (.jsetX 1 2 0x2, [(1, 0xf0), (2, 0x10)], 7),
   (.jsetX 1 2 0x2, [(1, 0xf0), (2, 0xf)], 5), (.jneK 1 0 0x2, [(1, 0)], 5), (.jneX 1 2 0x2, [(1, 5), (2, 6)], 7),
   (.jneX 1 2 0x2, [(1, 5), (2, 5)], 5), (.jsgtK 1 5 0x2, [(1, 5)], 5),
   (.jsgtX 1 2 0x2, [(1, 0), (2, 0xffffffffffffffff)], 7),
   (.jsgtX 1 2 0x2, [(1, 0x8000000000000000), (2, 0x7fffffffffffffff)], 5), (.jsgeK 1 0xffffffff 0x2, [(1, 0)], 7),
   (.jsgeX 1 2 0x2, [(1, 0xffffffffffffffff), (2, 0xffffffffffffffff)], 7),
   (.jsgeX 1 2 0x2, [(1, 0x8000000000000000), (2, 0)], 5), (.jltK 1 0xffffffff 0x2, [(1, 1)], 7),
   (.jltX 1 2 0x2, [(1, 0), (2, 0xffffffffffffffff)], 7), (.jltX 1 2 0x2, [(1, 5), (2, 5)], 5),
   (.jleK 1 0xffffffff 0x2, [(1, 0xffffffffffffffff)], 7), (.jleX 1 2 0x2, [(1, 5), (2, 5)], 7),
   (.jleX 1 2 0x2, [(1, 6), (2, 5)], 5), (.jsltK 1 0xffffffff 0x2, [(1, 0xfffffffffffffffe)], 7),
   (.jsltX 1 2 0x2, [(1, 0xffffffffffffffff), (2, 0)], 7),
   (.jsltX 1 2 0x2, [(1, 0x7fffffffffffffff), (2, 0x8000000000000000)], 5),
   (.jsleK 1 0xffffffff 0x2, [(1, 0xffffffffffffffff)], 7),
   (.jsleX 1 2 0x2, [(1, 0x8000000000000000), (2, 0x7fffffffffffffff)], 7),
   (.jsleX 1 2 0x2, [(1, 0), (2, 0xffffffffffffffff)], 5)]

theorem test_step_jmp : stepsJmp.all (fun r => jumpsTo r.1 r.2.1 r.2.2) = true := by decide

/-- Vectors of class JMP32 between V135 and V213, executed at pc 4: instruction, registers, pc after. -/
def stepsJmp32 : List (Instr × List (Nat × Nat) × Int) :=
  [(.ja32 2, [], 7), (.ja32 0x7fffffff, [], 2147483652), (.jeq32K 1 0xffffffff 0x2, [(1, 0xaaaaaaaaffffffff)], 7),
   (.jeq32X 1 2 0x2, [(1, 0xaaaaaaaa00000005), (2, 0x5555555500000005)], 7),
   (.jeq32X 1 2 0x2, [(1, 0x100000005), (2, 0x200000005)], 7),
   (.jgt32K 1 0xfffffffe 0x2, [(1, 0xaaaaaaaaffffffff)], 7),
   (.jgt32X 1 2 0x2, [(1, 0xaaaaaaaaffffffff), (2, 0x5555555500000000)], 7),
   (.jgt32X 1 2 0x2, [(1, 0xaaaaaaaa00000005), (2, 0x5555555500000005)], 5),
   (.jge32K 1 0 0x2, [(1, 0xaaaaaaaa00000000)], 7),
   (.jge32X 1 2 0x2, [(1, 0xaaaaaaaa00000005), (2, 0x5555555500000005)], 7),
   (.jge32X 1 2 0x2, [(1, 0xaaaaaaaa00000004), (2, 0x5555555500000005)], 5),
   (.jset32K 1 0xffffffff 0x2, [(1, 0xaaaaaaaa80000000)], 7),
   (.jset32X 1 2 0x2, [(1, 0xaaaaaaaa000000f0), (2, 0x5555555500000010)], 7),
   (.jset32X 1 2 0x2, [(1, 0xaaaaaaaa000000f0), (2, 0x555555550000000f)], 5),
   (.jne32K 1 0 0x2, [(1, 0xaaaaaaaa00000000)], 5),
   (.jne32X 1 2 0x2, [(1, 0xaaaaaaaa00000005), (2, 0x5555555500000006)], 7),
   (.jne32X 1 2 0x2, [(1, 0xaaaaaaaa00000005), (2, 0x5555555500000005)], 5),
   (.jsgt32K 1 5 0x2, [(1, 0xaaaaaaaa00000005)], 5),
   (.jsgt32X 1 2 0x2, [(1, 0xaaaaaaaa00000000), (2, 0x55555555ffffffff)], 7),
   (.jsgt32X 1 2 0x2, [(1, 0xaaaaaaaa80000000), (2, 0x555555557fffffff)], 5),
   (.jsge32K 1 0xffffffff 0x2, [(1, 0xaaaaaaaa00000000)], 7),
   (.jsge32X 1 2 0x2, [(1, 0xaaaaaaaaffffffff), (2, 0x55555555ffffffff)], 7),
   (.jsge32X 1 2 0x2, [(1, 0xaaaaaaaa80000000), (2, 0x5555555500000000)], 5),
   (.jlt32K 1 0xffffffff 0x2, [(1, 0xaaaaaaaa00000001)], 7),
   (.jlt32X 1 2 0x2, [(1, 0xaaaaaaaa00000000), (2, 0x55555555ffffffff)], 7),
   (.jlt32X 1 2 0x2, [(1, 0xaaaaaaaa00000005), (2, 0x5555555500000005)], 5),
   (.jle32K 1 0xffffffff 0x2, [(1, 0xaaaaaaaaffffffff)], 7),
   (.jle32X 1 2 0x2, [(1, 0xaaaaaaaa00000005), (2, 0x5555555500000005)], 7),
   (.jle32X 1 2 0x2, [(1, 0xaaaaaaaa00000006), (2, 0x5555555500000005)], 5),
   (.jslt32K 1 0xffffffff 0x2, [(1, 0xaaaaaaaafffffffe)], 7),
   (.jslt32X 1 2 0x2, [(1, 0xaaaaaaaaffffffff), (2, 0x5555555500000000)], 7),
   (.jslt32X 1 2 0x2, [(1, 0xaaaaaaaa7fffffff), (2, 0x5555555580000000)], 5),
   (.jsle32K 1 0xffffffff 0x2, [(1, 0xaaaaaaaaffffffff)], 7),
   (.jsle32X 1 2 0x2, [(1, 0xaaaaaaaa80000000), (2, 0x555555557fffffff)], 7),
   (.jsle32X 1 2 0x2, [(1, 0xaaaaaaaa00000000), (2, 0x55555555ffffffff)], 5)]

theorem test_step_jmp32 : stepsJmp32.all (fun r => jumpsTo r.1 r.2.1 r.2.2) = true := by decide

/-- Load and store vectors between V227 and V272: host, instruction, registers before, registers changed, bytes
stored. -/
def stepsAccess : List (Endian × Instr × List (Nat × Nat) × List (Nat × Nat) × Run) :=
  [(.little, .ldxb 1 2 0x10, [(2, 0x1000)], [(1, 0x88)], (0, 0, 0)),
   (.little, .ldxb 1 2 0x1011, [(2, 0xffffffffffffffff)], [(1, 0x88)], (0, 0, 0)),
   (.little, .ldxh 1 2 0x10, [(2, 0x1000)], [(1, 0x9988)], (0, 0, 0)),
   (.big, .ldxh 1 2 0x10, [(2, 0x1000)], [(1, 0x8899)], (0, 0, 0)),
   (.little, .ldxw 1 2 0x10, [(2, 0x1000)], [(1, 0xbbaa9988)], (0, 0, 0)),
   (.little, .ldxw 1 2 0xfff8, [(2, 0x1018)], [(1, 0xbbaa9988)], (0, 0, 0)),
   (.little, .ldxdw 1 2 0x10, [(2, 0x1000)], [(1, 0xffeeddccbbaa9988)], (0, 0, 0)),
   (.big, .ldxdw 1 2 0x10, [(2, 0x1000)], [(1, 0x8899aabbccddeeff)], (0, 0, 0)),
   (.little, .ldxsb 1 2 0x10, [(2, 0x1000)], [(1, 0xffffffffffffff88)], (0, 0, 0)),
   (.big, .ldxsb 1 2 0x10, [(2, 0x1000)], [(1, 0xffffffffffffff88)], (0, 0, 0)),
   (.little, .ldxsh 1 2 0x10, [(2, 0x1000)], [(1, 0xffffffffffff9988)], (0, 0, 0)),
   (.big, .ldxsh 1 2 0x10, [(2, 0x1000)], [(1, 0xffffffffffff8899)], (0, 0, 0)),
   (.little, .ldxsw 1 2 0x10, [(2, 0x1000)], [(1, 0xffffffffbbaa9988)], (0, 0, 0)),
   (.big, .ldxsw 1 2 0x10, [(2, 0x1000)], [(1, 0xffffffff8899aabb)], (0, 0, 0)),
   (.little, .stb 1 0x20 0x80c0e0f1, [(1, 0x1000)], [], (0x1020, 1, 0xf1)),
   (.big, .stb 1 0x20 0x80c0e0f1, [(1, 0x1000)], [], (0x1020, 1, 0xf1)),
   (.little, .sth 1 0x20 0x80c0e0f1, [(1, 0x1000)], [], (0x1020, 2, 0xf1e0)),
   (.big, .sth 1 0x20 0x80c0e0f1, [(1, 0x1000)], [], (0x1020, 2, 0xe0f1)),
   (.little, .stw 1 0x20 0x80c0e0f1, [(1, 0x1000)], [], (0x1020, 4, 0xf1e0c080)),
   (.big, .stw 1 0x20 0x80c0e0f1, [(1, 0x1000)], [], (0x1020, 4, 0x80c0e0f1)),
   (.little, .stdw 1 0x20 0x80c0e0f1, [(1, 0x1000)], [], (0x1020, 8, 0xf1e0c080ffffffff)),
   (.little, .stdw 1 0x20 0x7fffffff, [(1, 0x1000)], [], (0x1020, 8, 0xffffff7f00000000)),
   (.little, .stxb 1 2 0x20, [(1, 0x1000), (2, 0x1122334455667788)], [], (0x1020, 1, 0x88)),
   (.big, .stxb 1 2 0x20, [(1, 0x1000), (2, 0x1122334455667788)], [], (0x1020, 1, 0x88)),
   (.little, .stxh 1 2 0x20, [(1, 0x1000), (2, 0x1122334455667788)], [], (0x1020, 2, 0x8877)),
   (.big, .stxh 1 2 0x20, [(1, 0x1000), (2, 0x1122334455667788)], [], (0x1020, 2, 0x7788)),
   (.little, .stxw 1 2 0x20, [(1, 0x1000), (2, 0x1122334455667788)], [], (0x1020, 4, 0x88776655)),
   (.little, .stxw 1 1 0x20, [(1, 0x1000)], [], (0x1020, 4, 0x00100000)),
   (.little, .stxdw 1 2 0x20, [(1, 0x1000), (2, 0x1122334455667788)], [], (0x1020, 8, 0x8877665544332211)),
   (.big, .stxdw 1 2 0x20, [(1, 0x1000), (2, 0x1122334455667788)], [], (0x1020, 8, 0x1122334455667788))]

theorem test_step_access : stepsAccess.all (fun r =>
    accesses r.1 r.2.1 r.2.2.1 accessBytes r.2.2.2.1 r.2.2.2.2) = true := by decide

/-- Atomic vectors between V273 and V309: host, instruction, registers and bytes before, registers changed, bytes
after. -/
def stepsAtomicA : List (Endian × Instr × List (Nat × Nat) × Run × List (Nat × Nat) × Run) :=
  [(.little, .atomicAdd32 1 2 0x10, [(1, 0x2000), (2, 0xaaaaaaaa00000f1f)],
    (0x2010, 4, 0xf00000f0), [], (0x2010, 4, 0x0f1000f0)),
   (.little, .atomicAdd32 1 2 0x10, [(1, 0x2000), (2, 1)], (0x2010, 4, 0xffffffff), [], (0x2010, 4, 0x00000000)),
   (.little, .atomicFetchAdd32 1 2 0x10, [(1, 0x2000), (2, 0xaaaaaaaa00000f1f)],
    (0x2010, 4, 0xf00000f0), [(2, 0xf00000f0)], (0x2010, 4, 0x0f1000f0)),
   (.big, .atomicFetchAdd32 1 2 0x10, [(1, 0x2000), (2, 1)],
    (0x2010, 4, 0x80000000), [(2, 0x80000000)], (0x2010, 4, 0x80000001)),
   (.little, .atomicOr32 1 2 0x10, [(1, 0x2000), (2, 0xaaaaaaaa00000f1f)],
    (0x2010, 4, 0xf00000f0), [], (0x2010, 4, 0xff0f00f0)),
   (.little, .atomicFetchOr32 1 2 0x10, [(1, 0x2000), (2, 0xaaaaaaaa00000f1f)],
    (0x2010, 4, 0xf00000f0), [(2, 0xf00000f0)], (0x2010, 4, 0xff0f00f0)),
   (.little, .atomicAnd32 1 2 0x10, [(1, 0x2000), (2, 0xaaaaaaaa00000f1f)],
    (0x2010, 4, 0xf00000f0), [], (0x2010, 4, 0x10000000)),
   (.little, .atomicFetchAnd32 1 2 0x10, [(1, 0x2000), (2, 0xaaaaaaaa00000f1f)],
    (0x2010, 4, 0xf00000f0), [(2, 0xf00000f0)], (0x2010, 4, 0x10000000)),
   (.little, .atomicXor32 1 2 0x10, [(1, 0x2000), (2, 0xaaaaaaaa00000f1f)],
    (0x2010, 4, 0xf00000f0), [], (0x2010, 4, 0xef0f00f0)),
   (.little, .atomicFetchXor32 1 2 0x10, [(1, 0x2000), (2, 0xaaaaaaaa00000f1f)],
    (0x2010, 4, 0xf00000f0), [(2, 0xf00000f0)], (0x2010, 4, 0xef0f00f0)),
   (.little, .atomicXchg32 1 2 0x10, [(1, 0x2000), (2, 0xaaaaaaaa00000f1f)],
    (0x2010, 4, 0xf00000f0), [(2, 0xf00000f0)], (0x2010, 4, 0x1f0f0000)),
   (.little, .atomicCmpxchg32 1 2 0x10, [(0, 0x55555555f00000f0), (1, 0x2000), (2, 0xaaaaaaaa00000f1f)],
    (0x2010, 4, 0xf00000f0), [(0, 0xf00000f0)], (0x2010, 4, 0x1f0f0000)),
   (.little, .atomicCmpxchg32 1 2 0x10, [(0, 1), (1, 0x2000), (2, 0xaaaaaaaa00000f1f)],
    (0x2010, 4, 0xf00000f0), [(0, 0xf00000f0)], (0x2010, 4, 0xf00000f0))]

theorem test_step_atomic_a : stepsAtomicA.all (fun r =>
    accesses r.1 r.2.1 r.2.2.1 r.2.2.2.1 r.2.2.2.2.1 r.2.2.2.2.2) = true := by decide

/-- Atomic vectors between V273 and V309: host, instruction, registers and bytes before, registers changed, bytes
after. -/
def stepsAtomicB : List (Endian × Instr × List (Nat × Nat) × Run × List (Nat × Nat) × Run) :=
  [(.little, .atomicAdd64 1 2 0x10, [(1, 0x2000), (2, 0x100000f1f)],
    (0x2010, 8, 0xf0000000000000f0), [], (0x2010, 8, 0x0f100000010000f0)),
   (.little, .atomicAdd64 1 10 0x10, [(1, 0x2000), (10, 0x2000)],
    (0x2010, 8, 0x0000000000000000), [], (0x2010, 8, 0x0020000000000000)),
   (.little, .atomicFetchAdd64 1 2 0x10, [(1, 0x2000), (2, 0x100000f1f)],
    (0x2010, 8, 0xf0000000000000f0), [(2, 0xf0000000000000f0)], (0x2010, 8, 0x0f100000010000f0)),
   (.little, .atomicFetchAdd64 1 1 0, [(1, 0x2010)],
    (0x2010, 8, 0x0500000000000000), [(1, 5)], (0x2010, 8, 0x1520000000000000)),
   (.little, .atomicOr64 1 2 0x10, [(1, 0x2000), (2, 0x100000f1f)],
    (0x2010, 8, 0xf0000000000000f0), [], (0x2010, 8, 0xff0f0000010000f0)),
   (.little, .atomicFetchOr64 1 2 0x10, [(1, 0x2000), (2, 0x100000f1f)],
    (0x2010, 8, 0xf0000000000000f0), [(2, 0xf0000000000000f0)], (0x2010, 8, 0xff0f0000010000f0)),
   (.little, .atomicAnd64 1 2 0x10, [(1, 0x2000), (2, 0x100000f1f)],
    (0x2010, 8, 0xf0000000000000f0), [], (0x2010, 8, 0x1000000000000000)),
   (.little, .atomicFetchAnd64 1 2 0x10, [(1, 0x2000), (2, 0x100000f1f)],
    (0x2010, 8, 0xf0000000000000f0), [(2, 0xf0000000000000f0)], (0x2010, 8, 0x1000000000000000)),
   (.little, .atomicXor64 1 2 0x10, [(1, 0x2000), (2, 0x100000f1f)],
    (0x2010, 8, 0xf0000000000000f0), [], (0x2010, 8, 0xef0f0000010000f0)),
   (.little, .atomicFetchXor64 1 2 0x10, [(1, 0x2000), (2, 0x100000f1f)],
    (0x2010, 8, 0xf0000000000000f0), [(2, 0xf0000000000000f0)], (0x2010, 8, 0xef0f0000010000f0)),
   (.little, .atomicXchg64 1 2 0x10, [(1, 0x2000), (2, 0x100000f1f)],
    (0x2010, 8, 0xf0000000000000f0), [(2, 0xf0000000000000f0)], (0x2010, 8, 0x1f0f000001000000)),
   (.little, .atomicCmpxchg64 1 2 0x10, [(0, 0xf0000000000000f0), (1, 0x2000), (2, 0x100000f1f)],
    (0x2010, 8, 0xf0000000000000f0), [], (0x2010, 8, 0x1f0f000001000000)),
   (.little, .atomicCmpxchg64 1 10 0x10, [(0, 0), (1, 0x2000), (10, 0x2000)],
    (0x2010, 8, 0x0000000000000000), [], (0x2010, 8, 0x0020000000000000))]

theorem test_step_atomic_b : stepsAtomicB.all (fun r =>
    accesses r.1 r.2.1 r.2.2.1 r.2.2.2.1 r.2.2.2.2.1 r.2.2.2.2.2) = true := by decide

/-- 64-bit immediate vectors between V310 and V330: instruction, registers before, registers changed. -/
def stepsImm64 : List Row :=
  [(.lddw 1 0x55667788 0x11223344, [], [(1, 0x1122334455667788)]), (.lddw 10 1 0, [], [(10, 1)]),
   (.ldMapFd 1 5, [], [(1, 0x7000)]), (.ldMapValFd 1 5 0x10, [], [(1, 0x9010)]),
   (.ldMapValFd 1 5 0xfffffff8, [], [(1, 0x100008ff8)]), (.ldVarAddr 1 7, [], [(1, 0xb000)]),
   (.ldCodeAddr 1 3, [], [(1, 0x400020)]), (.ldCodeAddr 1 0xffffffff, [], [(1, 0x400000)]),
   (.ldMapIdx 1 1, [], [(1, 0x7100)]), (.ldMapValIdx 1 1 4, [], [(1, 0xa004)]),
   (.ldMapValIdx 1 0 0, [], [(1, 0x9000)])]

theorem test_step_imm64 : stepsImm64.all platformRow = true := by decide
/-! ## Calls, exit, helpers and packet loads: one step each -/

/-- A state at pc 5 with one frame on the call stack. -/
def inFunction : State := { start .little [(0, 7)] with pc := 5, callStack := [⟨3, none⟩] }

/-- V214 to V218: the frame holds the next slot, and the depth limit is checked first. -/
theorem test_step_callLocal :
    (match exec (.callLocal 2) { start .little [] with pc := 4 } with
      | .next t => decide (t.pc = 7 ∧ t.callStack = [⟨5, none⟩])
      | _ => false) = true ∧
    (match exec (.callLocal 2) { inFunction with params := { Params.default with maxCallDepth := some 1 } } with
      | .next t => decide (t.status = .faulted (.callDepth 5) ∧ t.pc = 5 ∧ t.callStack = [⟨3, none⟩])
      | _ => false) = true := by decide

/-- R386: under `linux_abi` a call makes R6 to R9 unwritten and lowers R10, and EXIT restores them. -/
theorem test_step_linuxAbi :
    (match exec (.callLocal 0) { start .little [(1, 1), (6, 6), (10, 0x1000)] with
        params := { Params.default with localCallConv := .linuxAbi } } with
      | .next t => decide (t.regs = regsOf [(1, 1), (10, 0xe00)] ∧
          t.callStack = [⟨1, some ⟨.written 6, .unwritten, .unwritten, .unwritten, .written 0x1000⟩⟩])
      | _ => false) = true ∧
    (match exec .exit { start .little [(0, 9), (1, 1), (6, 5)] with
        callStack := [⟨1, some ⟨.written 6, .unwritten, .unwritten, .unwritten, .written 0x1000⟩⟩] } with
      | .next t => decide (t.regs = regsOf [(0, 9), (6, 6), (10, 0x1000)] ∧ t.pc = 1 ∧ t.callStack = [])
      | _ => false) = true := by decide

/-- V219 to V221: EXIT returns, ends the run with R0, or faults on an unwritten R0. -/
theorem test_step_exit :
    (match exec .exit inFunction with
      | .next t => decide (t.pc = 3 ∧ t.callStack = [] ∧ t.status = .running)
      | _ => false) = true ∧
    (match exec .exit (start .little [(0, 0x2a)]) with
      | .next t => decide (t.status = .exited 0x2a ∧ t.pc = 0)
      | _ => false) = true ∧
    (match exec .exit (start .little []) with
      | .next t => decide (t.status = .faulted (.uninitRegister 0))
      | _ => false) = true := by decide

/-- A state whose `CALL_HELPER 1` always answers the same (as in V223), and whose `CALL_BTF 2` answers a fault on these
registers and this memory and is free on all others, in one writable region. -/
def helperState : State :=
  { memState .little [(1, 2)] [(0x1000, 5)] with
    helper := [((.staticId, 1),
        ⟨[], some (.ok (regsOf [(0, 5)]) [(0x1000, some 9), (0x1001, some 8), (0x5000, some 1)])⟩),
      ((.btfId, 2), ⟨[(⟨regsOf [(1, 2)], [(0x1000, 5)], [], 0⟩, .fault 77)], none⟩)] }

/-- R385: `Ok` sets the registers and the admitted bytes; a fault is reported; an undefined pair is an unknown helper. -/
theorem test_step_helpers :
    (match exec (.callHelper 1) helperState with
      | .next t => decide (t.regs = regsOf [(0, 5)] ∧ t.mem = memOf [(0x1000, 9), (0x1001, 8)] ∧ t.pc = 1 ∧
          t.helper = helperState.helper)
      | _ => false) = true ∧
    (match exec (.callBtf 2) helperState with
      | .next t => decide (t.status = .faulted (.helperFault .btfId 2 77) ∧ t.regs = helperState.regs)
      | _ => false) = true ∧
    (match exec (.callHelper 2) helperState with
      | .next t => decide (t.status = .faulted (.unknownHelper .staticId 2))
      | _ => false) = true := by decide

/-- R385: off the listed arguments the answer of a free helper is whatever the opaque function gives there. -/
theorem test_helper_free :
    ({ helperState with draws := 1 }).helperAnswer .btfId 2 =
      some (Config.helper .btfId 2 ⟨regsOf [(1, 2)], [(0x1000, 5)], [], 1⟩) := rfl

/-- CALL_HELPER 1 and JA -2, with a helper that changes nothing, after any number of calls. -/
def helperLoop (draws : Nat) (pc : Int) : State :=
  { start .little [] with
    prog := [bytes 0x8500000001000000, bytes 0x0500feff00000000], pc := pc, draws := draws
    helper := [((.staticId, 1), ⟨[], some (.ok (regsOf []) [])⟩)] }

theorem fetch_draws (s : State) (n : Nat) : fetch { s with draws := n } = fetch s := rfl

/-- R556: a loop that calls a helper goes round again, whatever number of calls it has made; it never faults. -/
theorem test_helper_loop (n : Nat) :
    step (helperLoop n 0) = .next (helperLoop (n + 1) 1) ∧ step (helperLoop n 1) = .next (helperLoop n 0) := by
  have h0 : fetch (helperLoop n 0) = .ok (.callHelper 1) := (fetch_draws (helperLoop 0 0) n).trans (by decide)
  have h1 : fetch (helperLoop n 1) = .ok (.ja 0xfffe) := (fetch_draws (helperLoop 0 1) n).trans (by decide)
  exact ⟨by simp only [step, h0]; rfl, by simp only [step, h1]; rfl⟩

/-- A state that supports the packet group, with the answers to three packet loads on these registers. -/
def packetState : State :=
  { start .little [(3, 1)] with
    params := { Params.default with groups := [.base32, .packet] }
    packetLoad := some ⟨[(⟨.abs, 4, 14, regsOf [(3, 1)], []⟩, .ok (regsOf [(0, 6)]) []),
      (⟨.ind 1, 2, 8, regsOf [(3, 1)], []⟩, .fault (.memFault 9 2 .read)),
      (⟨.ind 1, 1, 8, regsOf [(3, 1)], []⟩, .ok (regsOf [(0, 7)]) [])], some .undefined⟩ }

/-- R490 to R496: a packet load takes what `PacketLoad` answers at the value of `src_reg`; one that is not supplied is
illegal, as in V331 to V336, and so is one where `PacketLoad` is undefined. -/
theorem test_step_packet :
    (match exec (.ldabsw 14) packetState, exec (.ldindb 3 8) packetState with
      | .next t, .next u => decide (t.regs = regsOf [(0, 6)] ∧ t.pc = 1 ∧ t.packetLoad = packetState.packetLoad ∧
          u.regs = regsOf [(0, 7)] ∧ u.pc = 1)
      | _, _ => false) = true ∧
    (match exec (.ldindh 3 8) packetState, exec (.ldindh 4 8) packetState with
      | .next t, .next u =>
        decide (t.status = .faulted (.memFault 9 2 .read) ∧ t.pc = 0 ∧ u.status = .faulted (.uninitRegister 4))
      | _, _ => false) = true ∧
    (match exec (.ldindb 3 14) (start .little []), exec (.ldindb 3 14) packetState with
      | .next t, .next u => decide (t.status = .faulted (.illegalInstruction 0 0x0000000e00003050) ∧
          u.status = .faulted (.illegalInstruction 0 0x0000000e00003050))
      | _, _ => false) = true := by decide

/-! ## Well-formedness: for each check an ill-formed term that it refuses -/

/-- Default parameters with other groups or regions. -/
def withGroups (gs : List Group) : Params := { Params.default with groups := gs }
def withRegions (rs : List Region) : Params := { Params.default with regions := rs }

/-- N55, N57, N58, N60: an instruction of a group that is not supported; N59 is the control. -/
theorem test_wellFormed_group :
    wellFormed .default (.ldabsw 0) = false ∧ wellFormed (withGroups [.base32, .base64]) (.mul64K 1 3) = false ∧
    wellFormed (withGroups [.base32]) (.add64K 1 3) = false ∧
    wellFormed (withGroups [.base32, .base64, .atomic32]) (.atomicAdd64 1 2 0) = false ∧
    wellFormed (withGroups [.base32]) (.add32K 1 3) = true := by decide

/-- N20, N21 (R34): writing R10 through `dst_reg`, or through `src_reg` of a fetching atomic, is refused while
`R10ReadOnly` holds; a store through R10 and compare-and-exchange with R10 are not writes of it. -/
theorem test_wellFormed_readOnlyR10 :
    wellFormed .default (.mov64K 10 0) = false ∧ wellFormed .default (.atomicFetchAdd64 1 10 0) = false ∧
    wellFormed { Params.default with r10ReadOnly := false } (.mov64K 10 0) = true ∧
    wellFormed .default (.stxdw 10 10 0) = true ∧ wellFormed .default (.atomicCmpxchg64 10 10 0) = true := by decide

theorem test_params_default : Params.default.wellFormed = true := by decide

/-- The checks of the parameters (R6, R68, R128): base32 missing, groups not closed, regions that overlap, a region
past 2^64. -/
theorem test_params_refused :
    (withGroups []).wellFormed = false ∧ (withGroups [.base32, .atomic64]).wellFormed = false ∧
    (withRegions [⟨0, 8, true, true, false⟩, ⟨7, 1, true, false, false⟩]).wellFormed = false ∧
    (withRegions [⟨2 ^ 64 - 4, 5, true, true, false⟩]).wellFormed = false := by decide

/-- R79, R478: a map value or a variable in no region, off the base of its region, or in a private region is refused; a
shared region that starts there is accepted. -/
theorem test_params_tied :
    let p := withRegions [⟨0x1000, 16, true, true, true⟩, ⟨0x2000, 16, true, true, false⟩]
    ({ p with mapVal := [(7, 0x1000)], varAddr := [(1, 0x1000)] }).wellFormed = true ∧
    ({ p with mapVal := [(7, 0x3000)] }).wellFormed = false ∧ ({ p with mapVal := [(7, 0x1008)] }).wellFormed = false ∧
    ({ p with mapVal := [(7, 0x2000)] }).wellFormed = false ∧ ({ p with varAddr := [(1, 0x3000)] }).wellFormed = false ∧
    ({ p with varAddr := [(1, 0x2000)] }).wellFormed = false := by decide

/-- R551: a program without a slot is refused, so the reset state is no launch before a program is placed. -/
theorem test_launch_refused :
    launchProg [] = false ∧ launchProg [zeroSlot] = true ∧ ¬ State.reset.launchOk :=
  ⟨rfl, rfl, fun h => absurd h.1 (by decide)⟩

/-- A memory that is not in its canonical form. -/
theorem test_memory_refused :
    ¬ Memory.wf [(2, 1), (1, 1)] ∧ ¬ Memory.wf [(1, 1), (1, 2)] ∧ ¬ Memory.wf [(2 ^ 64, 0)] := by
  decide

/-! ## The host's two questions -/

/-- An instruction given as the opcode table numbers its bits (LDDW with operands of the table's second word). -/
theorem test_decodeTableWord :
    decodeTableWord 64 0x1122334400000107 = some (.add64K 1 0x11223344) ∧
    decodeTableWord 128 0x11223344000000005566778800000118 = some (.lddw 1 0x55667788 0x11223344) ∧
    decodeTableWord 64 0x18 = some (.lddw 0 0 0) ∧ decodeTableWord 64 0 = none := by decide

/-- The first step after reset runs the word that `withFetchWord` places. -/
theorem test_first_step :
    (match step (State.reset.withFetchWord 64 0x1122334400000107) with
      | .next t => decide (t.regs[(1 : Reg)] = .written 0x11223344 ∧ t.pc = 1)
      | _ => false) = true ∧
    (match step State.reset with
      | .next t => decide (t.status = .faulted (.pcOutOfRange 0))
      | _ => false) = true := by decide

/-! ## Witnesses: for every statement with hypotheses, states and operands that meet them all, clause by clause -/

/-- A state whose program is the given slots, at the given pc. -/
def progState (slots : List Nat) (pc : Int) : State :=
  { start .little [(0, 0), (1, 1)] with prog := slots.map bytes, pc := pc }

/-- What `step` or `exec` gave, for an outcome that is a next state. -/
def nextOf (o : Host.Outcome State Fault Refusal) : State :=
  match o with
  | .next t => t
  | _ => State.reset

theorem witness_DecodeIsStrict :
    decode .little [bytes 0x9500000000000000, bytes 0] = .ok (.exit, [bytes 0]) ∧
    decode .big [bytes 0x1810000055667788, bytes 0x0000000011223344] = .ok (.lddw 1 0x55667788 0x11223344, []) := by
  decide

/-- At the last slot, the boundary of `pc < length`. -/
theorem witness_StepRunsDecoded :
    let s := progState [0x0500000000000000, 0x9500000000000000] 1
    s.status = .running ∧ 0 ≤ s.pc ∧ s.pc < s.prog.length ∧ isSecondSlot s.params.endian s.prog s.pc.toNat = false ∧
    decode s.params.endian (s.prog.drop s.pc.toNat) = .ok (.exit, []) ∧ wellFormed s.params .exit = true := by decide

/-- Just below and just above the program; and a wide instruction in its last slot. -/
theorem witness_FetchOutsideProgram :
    (progState [0x9500000000000000] (-1)).pc < 0 ∧
    (let s := progState [0x9500000000000000] 1; s.status = .running ∧ (s.prog.length : Int) ≤ s.pc) ∧
    (let s := progState [0x1801000001000000] 0
     0 ≤ s.pc ∧ s.pc + 1 = s.prog.length ∧ s.prog[s.pc.toNat]? = some (bytes 0x1801000001000000) ∧
     isSecondSlot s.params.endian s.prog s.pc.toNat = false ∧
     decodeFields ((bytes 0x1801000001000000).fields s.params.endian) = .ok (.lddw 1 1 0) ∧
     wellFormed s.params (.lddw 1 1 0) = true ∧ (Instr.lddw 1 1 0).isWide = true) := by decide

/-- A slot after an opcode 0x18 is a second slot; the one after that, with the same bytes, is not. -/
theorem witness_SecondSlots :
    let p := [bytes 0x1801000001000000, bytes 0x1801000001000000, bytes 0x1801000001000000]
    isSecondSlot .little p 1 = true ∧ isSecondSlot .little p 2 = false ∧ isSecondSlot .little p 3 = true := by decide

theorem witness_FetchAtSecondSlot :
    let s := progState [0x1801000001000000, 0] 1
    s.status = .running ∧ 0 ≤ s.pc ∧ s.pc < s.prog.length ∧
      isSecondSlot s.params.endian s.prog s.pc.toNat = true := by decide

/-- No row; an unsupported group; a write of R10; and wide instructions whose second slot is bad in the opcode or in
an unused `next_imm`. -/
theorem witness_IllegalInstructions :
    (let s := progState [0] 0
     s.status = .running ∧ 0 ≤ s.pc ∧ s.prog[s.pc.toNat]? = some (bytes 0) ∧
     isSecondSlot s.params.endian s.prog s.pc.toNat = false) ∧
    decodeFields ((bytes 0).fields .little) = .error .noSuchOpcode ∧
    (decodeFields ((bytes 0x200000000e000000).fields .little) = .ok (.ldabsw 14) ∧
      Params.default.supports (Instr.ldabsw 14).group = false) ∧
    (decodeFields ((bytes 0xb70a000000000000).fields .little) = .ok (.mov64K 10 0) ∧
      Params.default.r10ReadOnly = true ∧ (Instr.mov64K 10 0).writesReg = some 10) ∧
    (let s := progState [0x1801000005000000, 0x9500000000000000] 0
     decodeFields ((bytes 0x1801000005000000).fields s.params.endian) = .ok (.lddw 1 5 0) ∧
     wellFormed s.params (.lddw 1 5 0) = true ∧ (Instr.lddw 1 5 0).isWide = true ∧
     s.prog[s.pc.toNat + 1]? = some (bytes 0x9500000000000000) ∧
     ((bytes 0x9500000000000000).fields s.params.endian).opcode ≠ 0) ∧
    (let s := progState [0x1811000005000000, 0x0000000001000000] 0
     decodeFields ((bytes 0x1811000005000000).fields s.params.endian) = .ok (.ldMapFd 1 5) ∧
     wellFormed s.params (.ldMapFd 1 5) = true ∧ (Instr.ldMapFd 1 5).isWide = true ∧
     s.prog[s.pc.toNat + 1]? = some (bytes 0x0000000001000000) ∧ (Instr.ldMapFd 1 5).usesNext = false ∧
     ((bytes 0x0000000001000000).fields s.params.endian).imm ≠ 0) := by decide

theorem witness_StepsExactlyWhileRunning :
    State.reset.status = .running ∧
    ({ State.reset with status := .faulted (.callDepth 0) }).status = .faulted (.callDepth 0) ∧
    ({ State.reset with status := .exited 1 }).status = .exited 1 := by decide

theorem witness_FaultChangesOnlyStatus :
    step State.reset = .next { State.reset with status := .faulted (.pcOutOfRange 0) } := rfl

/-- EXIT with an empty call stack; also the witness of `ProgramIsImmutable`. -/
theorem witness_OnlyExitEndsTheRun :
    let s := progState [0x9500000000000000] 0
    step s = .next { s with status := .exited 0 } := rfl

/-- A state with one private region, one written byte and a program that stores and calls: the witness of
`ProgramIsImmutable`, `MemoryStaysCanonical`, `ReadOnlyR10IsKept` and `PrivateRunsRecordNothing`. -/
def storingState : State :=
  { memState .little [(1, 0x1000), (10, 0x2000)] [(0x1001, 7)] with
    prog := [bytes 0x7a01000005000000, bytes 0x8510000000000000], callStack := [⟨1, none⟩] }

theorem witness_storing : ∃ t, step storingState = .next t := ⟨_, rfl⟩

theorem witness_storing_memory :
    storingState.mem.wf ∧ (∀ r ∈ storingState.params.regions, r.shared = false) ∧
    (nextOf (step storingState)).mem = memOf (Run.cells (0x1000, 8, 0x0500000000000000)) := by decide

/-- A helper at one pair and a `PacketLoad`, which leave R10 as it is. -/
theorem witness_ReadOnlyR10IsKept :
    let s := { storingState with
      helper := [((.staticId, 1), ⟨[], some (.ok storingState.regs [(0x1000, some 1)])⟩)]
      packetLoad := some ⟨[], some (.ok storingState.regs [])⟩ }
    s.params.r10ReadOnly = true ∧ s.params.localCallConv = .pcOnly ∧ s.stackOk ∧
    (∀ kind id regs writes, s.helperAnswer kind id = some (.ok regs writes) → regs[(10 : Reg)] = s.regs[(10 : Reg)]) ∧
    (∀ mode n imm regs writes, s.packetAnswer mode n imm = .ok regs writes → regs[(10 : Reg)] = s.regs[(10 : Reg)]) ∧
    ∃ t, step s = .next t := by
  refine ⟨rfl, rfl, ⟨by decide, fun n h => ?_⟩, fun kind id regs writes h => ?_, fun mode n imm regs writes h => ?_, _, rfl⟩
  · exact absurd (show (none : Option Nat) = some n from h) (by simp)
  · simp only [State.helperAnswer, tableLookup] at h
    split at h
    · next heq =>
      split at heq
      · obtain rfl := Option.some.inj heq
        simp_all [answerAt, tableLookup]
      · simp at heq
    · simp at h
  · simp_all [State.packetAnswer, answerAt, tableLookup]

/-- One step of a loop that calls a helper, after which registers and memory are as before. -/
theorem witness_PlatformFunctionsAreFixed :
    step (helperLoop 3 0) = .next (helperLoop 4 1) ∧ (helperLoop 3 0).helperAnswer .staticId 1 ≠ none ∧
    step (helperLoop 4 1) = .next (helperLoop 4 0) ∧ (helperLoop 4 0).helperInput = (helperLoop 4 1).helperInput ∧
    (helperLoop 4 0).regs = (helperLoop 4 1).regs ∧ (helperLoop 4 0).mem = (helperLoop 4 1).mem :=
  ⟨(test_helper_loop 3).1, by decide, (test_helper_loop 4).2, rfl, rfl, rfl⟩

/-- A launch with a map value and a platform variable, each at the base of a shared region. -/
theorem witness_LaunchStates :
    let s := { start .little [(1, 0x1000)] with
      prog := [bytes 0x9500000000000000], mem := [(0x1000, 5)]
      params := { withRegions [⟨0x1000, 16, true, true, true⟩, ⟨0x2000, 2 ^ 64 - 0x2000, true, false, true⟩] with
        mapVal := [(7, 0x1000)], varAddr := [(1, 0x2000)] } }
    s.launchOk ∧ tableLookup s.params.mapVal 7 = some 0x1000 ∧ tableLookup s.params.varAddr 1 = some 0x2000 := by
  refine ⟨⟨by decide, by decide, fun h => absurd h (by decide), by decide, by decide, rfl, rfl, rfl, rfl⟩,
    by decide, by decide⟩

/-- A call at the depth limit's last free frame keeps the call stack well-formed. -/
theorem witness_CallStackStaysWellFormed :
    let s := { storingState with pc := 1, params := { storingState.params with maxCallDepth := some 2 } }
    s.stackOk ∧ (∃ t, step s = .next t) ∧ (nextOf (step s)).callStack = [⟨2, none⟩, ⟨1, none⟩] := by
  refine ⟨⟨by decide, fun n h => ?_⟩, ⟨_, rfl⟩, by decide⟩
  have : n = 2 := by simpa using h.symm
  subst this
  decide

theorem witness_CallStackChangedOnlyByCallAndExit :
    (nextOf (exec .exit inFunction)).callStack ≠ inFunction.callStack ∧
    (nextOf (exec (.callLocal 0) inFunction)).callStack ≠ inFunction.callStack ∧
    (∃ t, exec .exit inFunction = .next t) ∧ ∃ t, exec (.callLocal 0) inFunction = .next t :=
  ⟨by decide, by decide, ⟨_, rfl⟩, ⟨_, rfl⟩⟩

/-- The first of two unwritten registers, and R0 after two written ones. -/
theorem witness_FirstUnwrittenRegisterFaults :
    (readsRegs (.add64X 1 2)).find? (fun q => (start .little []).regs[q] = .unwritten) = some 1 ∧
    (readsRegs (.atomicCmpxchg64 1 2 0)).find? (fun q => (start .little [(1, 0), (2, 0)]).regs[q] = .unwritten) =
      some 0 := by decide

/-- Written operands: the hypotheses of `Alu32Results`, `Alu64Results`, `ShiftResults`, `NegAndMoves` and of the
immediate forms of the other arithmetic statements, with a source that is the destination too. -/
theorem witness_written_operands :
    let s := start .little [(1, 0xffffffffffffffff), (2, 0x20)]
    s.regs[(1 : Reg)] = .written 0xffffffffffffffff ∧ s.regs[(2 : Reg)] = .written 0x20 := by decide

/-- Divisors that are not zero: an immediate, a low half with zero upper half, and a divisor whose low half is zero
(which is zero for class ALU only). -/
theorem witness_UnsignedDivision :
    let s := start .little [(1, 7), (2, 1), (3, 0x100000000)]
    s.regs[(1 : Reg)] = .written 7 ∧ (1 : Word32) ≠ 0 ∧ s.regs[(2 : Reg)] = .written 1 ∧ low32 1 ≠ 0 ∧
    s.regs[(3 : Reg)] = .written 0x100000000 ∧ (0x100000000 : Word64) ≠ 0 ∧ low32 0x100000000 = 0 := by decide

/-- The overflowing pair and its neighbour, at both widths, for K and X. -/
theorem witness_SignedDivision :
    let s := start .little [(1, 0x80000000), (2, 0xffffffff), (3, 0x8000000000000000), (4, 0xffffffffffffffff)]
    (s.regs[(1 : Reg)] = .written 0x80000000 ∧ s.regs[(2 : Reg)] = .written 0xffffffff ∧
      low32 0xffffffff = 0xffffffff ∧ (low32 0x80000000).toInt = -2 ^ 31 ∧ (0xffffffff : Word32).toInt = -1) ∧
    (s.regs[(3 : Reg)] = .written 0x8000000000000000 ∧ s.regs[(4 : Reg)] = .written 0xffffffffffffffff ∧
      sext32 0xffffffff = 0xffffffffffffffff ∧ (0x8000000000000000 : Word64).toInt = -2 ^ 63 ∧
      (0xffffffffffffffff : Word64).toInt = -1) ∧
    (low32 0x80000001).toInt ≠ -2 ^ 31 ∧ (0x80000000 : Word64).toInt ≠ -2 ^ 63 := by decide

theorem witness_DivisionByZero :
    let s := start .little [(1, 0xffffffffffffffff), (2, 0), (3, 0xffffffff00000000)]
    s.regs[(1 : Reg)] = .written 0xffffffffffffffff ∧ s.regs[(2 : Reg)] = .written 0 ∧
    s.regs[(3 : Reg)] = .written 0xffffffff00000000 ∧ (0xffffffff00000000 : Word64).toNat % 2 ^ 32 = 0 := by decide

theorem witness_ByteSwapResults :
    (start .little [(1, 0x1234)]).regs[(1 : Reg)] = .written 0x1234 ∧
    (start .little [(1, 0x1234)]).params.endian = .little ∧
    (start .big [(1, 0x1234)]).regs[(1 : Reg)] = .written 0x1234 ∧
    (start .big [(1, 0x1234)]).params.endian = .big := by decide

/-- Equal operands, for K and X, at both widths; the conditions of JEQ and JNE are then on either side. -/
theorem witness_Branches :
    let s := start .little [(1, 0xffffffffffffffff), (2, 0xffffffffffffffff)]
    s.regs[(1 : Reg)] = .written 0xffffffffffffffff ∧ s.regs[(2 : Reg)] = .written 0xffffffffffffffff ∧
    sext32 0xffffffff = 0xffffffffffffffff ∧ low32 0xffffffffffffffff = 0xffffffff := by decide

/-- No limit, and a limit with one frame left, under each convention, with R10 written and not. -/
theorem witness_LocalCalls :
    (∀ n, inFunction.params.maxCallDepth = some n → inFunction.callStack.length < n) ∧
    inFunction.params.localCallConv = .pcOnly ∧
    (let s := { inFunction with params := { Params.default with maxCallDepth := some 2, localCallConv := .linuxAbi } }
     (∀ n, s.params.maxCallDepth = some n → s.callStack.length < n) ∧ s.params.localCallConv = .linuxAbi ∧
     s.regs[(10 : Reg)] = .unwritten) ∧
    (start .little [(10, 0x1000)]).regs[(10 : Reg)] = .written 0x1000 := by
  refine ⟨fun n h => absurd (show (none : Option Nat) = some n from h) (by simp), rfl, ⟨fun n h => ?_, rfl, by decide⟩,
    by decide⟩
  have : n = 2 := by simpa using h.symm
  subst this
  decide

theorem witness_CallDepthLimit :
    let s := { inFunction with params := { Params.default with maxCallDepth := some 1 } }
    s.params.maxCallDepth = some 1 ∧ 1 ≤ s.callStack.length ∧ inFunction.params.maxCallDepth = none := by decide

theorem witness_ExitReturns :
    inFunction.callStack = [⟨3, none⟩] ∧
    ({ inFunction with
      callStack := [⟨3, some ⟨.written 6, .unwritten, .unwritten, .unwritten, .written 8⟩⟩] }).callStack =
      [⟨3, some ⟨.written 6, .unwritten, .unwritten, .unwritten, .written 8⟩⟩] := by decide

theorem witness_ExitEnds :
    (start .little [(0, 1)]).callStack = [] ∧ (start .little [(0, 1)]).regs[(0 : Reg)] = .written 1 ∧
    (start .little []).callStack = [] ∧ (start .little []).regs[(0 : Reg)] = .unwritten := by decide

/-- A call and the EXIT right after it, under each convention. -/
theorem witness_CallThenReturn (c : CallConv) :
    let s := { start .little [(6, 6)] with params := { Params.default with localCallConv := c } }
    ∃ t v, exec (.callLocal 0) s = .next t ∧ t.status = .running ∧ t.params = s.params ∧
      exec .exit t = .next v := by
  cases c <;> exact ⟨_, _, rfl, rfl, rfl, rfl⟩

/-- An answer at every argument, and the arguments of this state. -/
theorem witness_HelperAnswers :
    ∃ f, tableLookup helperState.helper (.staticId, 1) = some f ∧
      givesAt f (Config.helper .staticId 1) ⟨helperState.regs, helperState.mem, helperState.events, helperState.draws⟩
        (.ok (regsOf [(0, 5)]) [(0x1000, some 9), (0x1001, some 8), (0x5000, some 1)]) :=
  ⟨_, rfl, .inr ⟨rfl, .inl rfl⟩⟩

/-- A pair where `Helper` is undefined, and a listed answer that is a fault. -/
theorem witness_HelperFaults :
    tableLookup helperState.helper (.staticId, 2) = none ∧
    ∃ f, tableLookup helperState.helper (.btfId, 2) = some f ∧
      givesAt f (Config.helper .btfId 2) ⟨helperState.regs, helperState.mem, helperState.events, helperState.draws⟩
        (.fault 77) :=
  ⟨by decide, _, rfl, .inl (by decide)⟩

/-- A free answer: what the opaque function gives, whatever that is. -/
theorem witness_HelperFree :
    let s := { helperState with draws := 1 }
    ∃ f, tableLookup s.helper (.btfId, 2) = some f ∧
      givesAt f (Config.helper .btfId 2) s.helperInput (Config.helper .btfId 2 s.helperInput) :=
  ⟨_, rfl, .inr ⟨by decide, .inr ⟨rfl, rfl⟩⟩⟩

/-- Loads of every width at the address whose doubleword ends the first region, on either host: admitted, aligned,
written. -/
theorem witness_Loads (e : Endian) :
    let s := memState e [(1, 0x1100)] (Run.cells (0x10f8, 8, 0x8000000000000000))
    s.regs[(1 : Reg)] = .written 0x1100 ∧
    (0x10f8 : Word64).toNat = (((0x1100 : Word64).toNat + (0xfff8 : Off).toInt) % 2 ^ 64).toNat ∧
    ∀ n ∈ [1, 2, 4, 8], s.regionFor (·.readable) 0x10f8 n = some ⟨0x1000, 0x100, true, true, false⟩ ∧
      (0x10f8 : Word64).toNat % n = 0 ∧ s.sees ⟨0x1000, 0x100, true, true, false⟩ 0x10f8 n
        (match e with | .little => 0x80 | .big => 0x80 * 2 ^ (8 * (n - 1))) := by
  cases e <;> exact ⟨by decide, by decide, by unfold State.sees; decide⟩

/-- A load of one byte of a shared region sees the oracle's byte. -/
theorem witness_Loads_shared :
    let s := { start .little [(1, 0x10)] with params := withRegions [⟨0x10, 1, true, true, true⟩] }
    s.regionFor (·.readable) 0x10 1 = some ⟨0x10, 1, true, true, true⟩ ∧
    s.sees ⟨0x10, 1, true, true, true⟩ 0x10 1 (Config.readOracle [] 0x10).toNat := by
  refine ⟨by decide, (Config.readOracle [] 0x10).isLt, fun k hk => ?_⟩
  have : k = 0 := by omega
  subst this
  simp [State.byteAt, bytePlace, start, State.reset, withRegions, Params.default]

/-- One byte past the region, wrapping past 2^64, misaligned, and an unwritten byte. -/
theorem witness_LoadFaults :
    let s := memState .little [(1, 0x10ff)] [(0x1000, 1)]
    (s.regs[(1 : Reg)] = .written 0x10ff ∧
      (0x10ff : Word64).toNat = (((0x10ff : Word64).toNat + (0 : Off).toInt) % 2 ^ 64).toNat ∧
      s.regionFor (·.readable) 0x10ff 2 = none) ∧
    (let top := { s with params := withRegions [⟨0, 2 ^ 64, true, true, false⟩] }
     top.regionFor (·.readable) 0xffffffffffffffff 2 = none ∧ (top.regionFor (·.readable) 0xffffffffffffffff 1).isSome = true) ∧
    (s.regionFor (·.readable) 0x1001 2 = some ⟨0x1000, 0x100, true, true, false⟩ ∧ s.params.strictAlign = true ∧
      (0x1001 : Word64).toNat % 2 ≠ 0) ∧
    (s.regionFor (·.readable) 0x1000 2 = some ⟨0x1000, 0x100, true, true, false⟩ ∧ (0x1000 : Word64).toNat % 2 = 0 ∧
      ∃ k < 2, s.mem.get ((0x1000 : Word64).toNat + k) = none) := by decide

/-- A doubleword at the end of the first region: admitted for writing and aligned. -/
theorem witness_Stores :
    let s := memState .little [(1, 0x1100), (2, 0x1122334455667788)] []
    s.regs[(1 : Reg)] = .written 0x1100 ∧ s.regs[(2 : Reg)] = .written 0x1122334455667788 ∧
    (0x10f8 : Word64).toNat = (((0x1100 : Word64).toNat + (0xfff8 : Off).toInt) % 2 ^ 64).toNat ∧
    (∀ n ∈ [1, 2, 4, 8], s.regionFor (·.writable) 0x10f8 n = some ⟨0x1000, 0x100, true, true, false⟩ ∧
      (0x10f8 : Word64).toNat % n = 0) := by decide

/-- A read-only region, and a misaligned address in a writable one. -/
theorem witness_StoreFaults :
    let s := memState .little [(1, 0x3000), (2, 0)] []
    (s.regs[(1 : Reg)] = .written 0x3000 ∧ s.regs[(2 : Reg)] = .written 0 ∧ s.regionFor (·.writable) 0x3000 1 = none) ∧
    s.params.strictAlign = true ∧
    ∀ n ∈ [2, 4, 8], s.regionFor (·.writable) 0x1001 n = some ⟨0x1000, 0x100, true, true, false⟩ ∧
      (0x1001 : Word64).toNat % n ≠ 0 := by decide

theorem witness_StoreThenLoad (e : Endian) :
    let s := memState e [(1, 0x1000), (2, 0x1122334455667788)] []
    s.regs[(1 : Reg)] = .written 0x1000 ∧ s.regs[(2 : Reg)] = .written 0x1122334455667788 ∧ s.status = .running ∧
    s.regionFor (·.readable) (effAddr 0x1000 8) 8 = some ⟨0x1000, 0x100, true, true, false⟩ ∧
    (∃ t, exec (.stxdw 1 2 8) s = .next t) ∧ (nextOf (exec (.stxdw 1 2 8) s)).status = .running := by
  cases e <;> exact ⟨by decide, by decide, rfl, by decide, ⟨_, rfl⟩, by decide⟩

/-- A word and a doubleword at the region's first address, with written operands: the hypotheses of
`AtomicsWithoutFetch`, `AtomicsWithFetch` and `CompareAndExchange`, whose R0 is equal at 32 bits and not at 64. -/
theorem witness_Atomics :
    let s := memState .little [(0, 0xffffffff00000007), (1, 0x1000), (2, 3)]
      (Run.cells (0x1000, 8, 0x0700000000000000))
    s.regs[(0 : Reg)] = .written 0xffffffff00000007 ∧ s.regs[(1 : Reg)] = .written 0x1000 ∧
    s.regs[(2 : Reg)] = .written 3 ∧
    (0x1000 : Word64).toNat = (((0x1000 : Word64).toNat + (0 : Off).toInt) % 2 ^ 64).toNat ∧
    (∀ n ∈ [4, 8], s.regionFor (fun g => g.readable && g.writable) 0x1000 n = some ⟨0x1000, 0x100, true, true, false⟩ ∧
      (0x1000 : Word64).toNat % n = 0) ∧
    s.sees ⟨0x1000, 0x100, true, true, false⟩ 0x1000 4 7 ∧ s.sees ⟨0x1000, 0x100, true, true, false⟩ 0x1000 8 7 ∧
    7 = (0xffffffff00000007 : Word64).toNat % 2 ^ 32 ∧ 7 ≠ (0xffffffff00000007 : Word64).toNat % 2 ^ 64 := by
  refine ⟨by decide, by decide, by decide, by decide, by decide, ?_, ?_, by decide, by decide⟩ <;>
    (unfold State.sees; decide)

/-- Past every region; in a read-only one; misaligned; with an unwritten byte. -/
theorem witness_AtomicFaults :
    let s := memState .little [(0, 0), (1, 0x4000), (2, 3)] [(0x1000, 7)]
    s.regs[(1 : Reg)] = .written 0x4000 ∧ (∀ q ∈ readsRegs (.atomicCmpxchg64 1 2 0), s.regs[q] ≠ .unwritten) ∧
    s.regionFor (·.readable) 0x4000 8 = none ∧
    ((s.regionFor (·.readable) 0x3000 8).isSome = true ∧ s.regionFor (fun g => g.readable && g.writable) 0x3000 8 = none) ∧
    (s.regionFor (fun g => g.readable && g.writable) 0x1004 8 = some ⟨0x1000, 0x100, true, true, false⟩ ∧
      (0x1004 : Word64).toNat % 8 ≠ 0) ∧
    (s.regionFor (fun g => g.readable && g.writable) 0x1000 8 = some ⟨0x1000, 0x100, true, true, false⟩ ∧
      (0x1000 : Word64).toNat % 8 = 0 ∧ ∃ k < 8, s.mem.get ((0x1000 : Word64).toNat + k) = none) := by decide

theorem witness_PlatformLookups :
    let p := (platformState []).params
    tableLookup p.mapByFd 5 = some 0x7000 ∧ tableLookup p.mapVal 0x7000 = some 0x9000 ∧
    tableLookup p.mapByIdx 0 = some 0x7000 ∧ tableLookup p.varAddr 7 = some 0xB000 ∧
    tableLookup p.codeAddr ((platformState []).pc, 3) = some 0x400020 := by decide

theorem witness_PlatformLookupFaults :
    let p := { (platformState []).params with mapVal := [] }
    tableLookup p.mapByFd 6 = none ∧ tableLookup p.mapByIdx 2 = none ∧ tableLookup p.mapVal 0x7000 = none ∧
    tableLookup p.mapByFd 5 = some 0x7000 ∧ tableLookup p.mapByIdx 1 = some 0x7100 ∧
    tableLookup p.mapVal 0x7100 = none ∧ tableLookup p.varAddr 8 = none ∧ tableLookup p.codeAddr (1, 3) = none := by decide

/-- For ABS and for IND: an answer with new registers; for IND a fault, and a register that is unwritten. -/
theorem witness_PacketAnswers :
    packetState.params.supports .packet = true ∧ packetState.regs[(3 : Reg)] = .written 1 ∧
    packetState.regs[(4 : Reg)] = .unwritten ∧
    ∃ f, packetState.packetLoad = some f ∧
      givesAt f Config.packetLoad ⟨.abs, 4, 14, packetState.regs, packetState.mem⟩ (.ok (regsOf [(0, 6)]) []) ∧
      givesAt f Config.packetLoad ⟨.ind 1, 1, 8, packetState.regs, packetState.mem⟩ (.ok (regsOf [(0, 7)]) []) ∧
      givesAt f Config.packetLoad ⟨.ind 1, 2, 8, packetState.regs, packetState.mem⟩ (.fault (.memFault 9 2 .read)) :=
  ⟨by decide, by decide, by decide, _, rfl, .inl (by decide), .inl (by decide), .inl (by decide)⟩

/-- The group is not supported; no `PacketLoad`; and one that is undefined at the arguments of an ABS and an IND load. -/
theorem witness_PacketLoadsIllegal :
    State.reset.params.supports .packet = false ∧
    (let s := { packetState with packetLoad := none }; s.params.supports .packet = true ∧ s.packetLoad = none) ∧
    packetState.params.supports .packet = true ∧ packetState.regs[(3 : Reg)] = .written 1 ∧
    ∃ f, packetState.packetLoad = some f ∧
      givesAt f Config.packetLoad ⟨.abs, 2, 14, packetState.regs, packetState.mem⟩ .undefined ∧
      givesAt f Config.packetLoad ⟨.ind 1, 4, 8, packetState.regs, packetState.mem⟩ .undefined :=
  ⟨by decide, by decide, by decide, by decide, _, rfl, .inr ⟨by decide, .inl rfl⟩, .inr ⟨by decide, .inl rfl⟩⟩

theorem test_reset_invariants :
    State.reset.mem.wf ∧ State.reset.callStack = [] ∧ State.reset.params.wellFormed = true := by decide

end Sys2Proof.Tests
end

section
/-! PROOFS. Launch (R10, R45, R550, R551): what reset holds, and what `launchOk` demands, read off one demand at a time.
Settles the statements on the defaults, the choices at reset and the launch states. -/

open Sys2Proof Sys2Proof.Machine

namespace Sys2Proof

theorem Group.includes_refl (g : Group) : g.includes g = true := by simp [Group.includes]

theorem Params.supports_of_mem {p : Params} {g : Group} (h : g ∈ p.groups) : p.supports g = true :=
  List.any_eq_true.mpr ⟨g, h, g.includes_refl⟩

/-- The default groups are all but the packet group (R10, D26). -/
theorem Params.default_supports (g : Group) : Params.default.supports g = true ↔ g ≠ .packet := by
  cases g <;> decide

theorem Region.disjoint_iff {a b : Region} :
    a.disjoint b = true ↔ a.base + a.length ≤ b.base ∨ b.base + b.length ≤ a.base := by
  simp [Region.disjoint]

theorem regionsDisjoint_iff_pairwise {regions : List Region} :
    regionsDisjoint regions = true ↔ regions.Pairwise fun a b => a.disjoint b = true := by
  induction regions with
  | nil => simp [regionsDisjoint]
  | cons a rest ih => simp [regionsDisjoint, ih]

theorem isSharedBase_iff {regions : List Region} {addr : Word64} :
    isSharedBase regions addr = true ↔ ∃ r ∈ regions, r.base = addr.toNat ∧ r.shared = true := by
  simp [isSharedBase]

/-- The demands on the parameters, each under a name (R6, R68, R79, R551). -/
structure Params.Demands (p : Params) : Prop where
  base32 : .base32 ∈ p.groups
  closed : groupsClosed p.groups = true
  disjoint : regionsDisjoint p.regions = true
  bounded : ∀ r ∈ p.regions, r.base + r.length ≤ 2 ^ 64
  mapVal : ∀ e ∈ p.mapVal, isSharedBase p.regions e.2 = true
  varAddr : ∀ e ∈ p.varAddr, isSharedBase p.regions e.2 = true

theorem Params.wellFormed_iff {p : Params} : p.wellFormed = true ↔ p.Demands := by
  simp only [Params.wellFormed, Bool.and_eq_true, List.contains_iff_mem, List.all_eq_true, decide_eq_true_eq]
  constructor
  · rintro ⟨⟨⟨⟨⟨base32, closed⟩, disjoint⟩, bounded⟩, mapVal⟩, varAddr⟩
    exact ⟨base32, closed, disjoint, bounded, mapVal, varAddr⟩
  · rintro ⟨base32, closed, disjoint, bounded, mapVal, varAddr⟩
    exact ⟨⟨⟨⟨⟨base32, closed⟩, disjoint⟩, bounded⟩, mapVal⟩, varAddr⟩

end Sys2Proof

namespace Sys2Proof.Machine

@[simp] theorem State.reset_params : State.reset.params = Params.default := rfl

@[simp] theorem State.reset_regs (r : Reg) : State.reset.regs[r] = .written 0 := by simp [State.reset]

/-- What a table answers is one of its entries (R478). -/
theorem mem_of_tableLookup {α β : Type} [DecidableEq α] {table : List (α × β)} {key : α} {b : β}
    (h : tableLookup table key = some b) : (key, b) ∈ table := by
  induction table with
  | nil => simp [tableLookup] at h
  | cons entry rest ih =>
    obtain ⟨a, c⟩ := entry
    simp only [tableLookup] at h
    split at h
    · next hkey => cases hkey; cases h; exact List.mem_cons_self
    · exact List.mem_cons_of_mem _ (ih h)

/-- An address that a table answers is the base of a shared region if every address of the table is (R79). -/
theorem sharedRegion_of_tableLookup {α : Type} [DecidableEq α] {regions : List Region} {table : List (α × Word64)}
    {key : α} {addr : Word64} (hall : ∀ e ∈ table, isSharedBase regions e.2 = true)
    (h : tableLookup table key = some addr) : ∃ r ∈ regions, r.base = addr.toNat ∧ r.shared = true :=
  isSharedBase_iff.mp (hall _ (mem_of_tableLookup h))

theorem State.stackOk_of_empty {s : State} (h : s.callStack = []) : s.stackOk := by
  simp [State.stackOk, h]

theorem State.exists_first_slot_of_launchOk {s : State} (h : s.launchOk) :
    ∃ first, s.prog[s.pc.toNat]? = some first := by
  obtain ⟨hprog, -, -, -, -, hpc, -⟩ := h
  have hlen : 0 < s.prog.length := of_decide_eq_true hprog
  exact ⟨s.prog[0], by rw [hpc]; exact List.getElem?_eq_getElem hlen⟩

/-- Without a program the reset state is no launch yet (R551, log 4). -/
theorem State.reset_not_launchOk : ¬ State.reset.launchOk := fun h => by
  obtain ⟨first, hfirst⟩ := State.exists_first_slot_of_launchOk h
  cases hfirst

theorem launchProg_programWith (e : Endian) (start nbits w : Nat) :
    launchProg (programWith e start nbits w) = true := by
  simp [launchProg, programWith, tableSlots]

/-- Placing any instruction in the reset state gives a launch (R551, log 4, log 20). -/
theorem State.reset_withFetchWord_launchOk (nbits w : Nat) : (State.reset.withFetchWord nbits w).launchOk := by
  have hparams : Params.default.wellFormed = true := by decide
  have hpacket : Params.default.supports .packet ≠ true := fun h => (Params.default_supports .packet).mp h rfl
  refine ⟨launchProg_programWith .little 0 nbits w, hparams, fun h => absurd h hpacket, reset_mem_wf, ?_,
    rfl, rfl, rfl, rfl⟩
  intro cell hcell
  cases hcell

end Sys2Proof.Machine

/-- Settles O6: reset takes `Params.default`, and which groups that supports is a check of the seven. -/
theorem launchDefaults : Obligations.LaunchDefaults :=
  ⟨Params.default_supports, rfl, rfl, rfl, rfl, rfl, by decide, rfl, rfl, rfl, rfl, rfl, rfl, rfl⟩

/-- Settles O7: the one part that is not read off `State.reset` is that an empty program is no launch. -/
theorem launchChoices : Obligations.LaunchChoices :=
  ⟨State.reset_regs, rfl, rfl, State.reset_not_launchOk, rfl, rfl, Memory.get_nil⟩

/-- Settles O9: each consequence from the demand of `launchOk` it comes from; the last part shows that the demands can
be met. -/
theorem launchStates : Obligations.LaunchStates := by
  refine ⟨fun s h => ?_, State.reset_withFetchWord_launchOk⟩
  have hfirst := State.exists_first_slot_of_launchOk h
  obtain ⟨-, hparams, -, hmem, -, hpc, hstack, -, -⟩ := h
  have demands := Params.wellFormed_iff.mp hparams
  refine ⟨hfirst, by rw [hpc]; rfl, Params.supports_of_mem demands.base32, hmem, State.stackOk_of_empty hstack,
    ?disjoint, demands.bounded, fun m a => sharedRegion_of_tableLookup demands.mapVal,
    fun i a => sharedRegion_of_tableLookup demands.varAddr⟩
  case disjoint => exact (regionsDisjoint_iff_pairwise.mp demands.disjoint).imp Region.disjoint_iff.mp
end

section
/-! PROOFS. What a run never changes (R10, R44, R76): the program text and the parameters. -/

open Sys2Proof Sys2Proof.Machine

namespace Sys2Proof.Machine

variable {s t : State} {i : Instr}

/-- What launch fixes for the whole run: the program text and the parameters, `Helper` and `PacketLoad` among them. -/
def State.fixed (s : State) :
    List Slot × Params × List ((HelperKind × Word32) × PlatformFn HelperInput HelperEffect) ×
      Option (PlatformFn PacketInput PacketEffect) :=
  (s.prog, s.params, s.helper, s.packetLoad)

theorem State.fixed_eq_iff : t.fixed = s.fixed ↔
    t.prog = s.prog ∧ t.params = s.params ∧ t.helper = s.helper ∧ t.packetLoad = s.packetLoad := by
  simp [State.fixed]

@[simp] theorem State.setReg_fixed (r : Reg) (v : Word64) : (s.setReg r v).fixed = s.fixed := rfl

@[simp] theorem State.advance_fixed (d : Int) : (s.advance d).fixed = s.fixed := rfl

@[simp] theorem State.put_fixed (a : Word64) (n : Nat) (v : Word64) : (s.put a n v).fixed = s.fixed := rfl

@[simp] theorem State.install_fixed (regs : Regs) (writes : List (Nat × Option Byte)) :
    (s.install regs writes).fixed = s.fixed := rfl

@[simp] theorem State.record_fixed (r : Region) (ev : Event) : (s.record r ev).fixed = s.fixed := by
  simp [State.fixed]

@[simp] theorem State.commit_fixed (r : Region) (a : Word64) (n : Nat) (old : Word64) (new : Option Word64) :
    (s.commit r a n old new).fixed = s.fixed := by
  simp [State.fixed]

theorem Wrote.fixed {d : Reg} (h : Wrote d s t) : t.fixed = s.fixed := by
  obtain ⟨v, n, rfl⟩ := h
  simp

theorem Committed.fixed (h : Committed s t) : t.fixed = s.fixed := by
  obtain ⟨r, -, a, n, old, new, -, rfl⟩ := h
  simp

/-- Executing an instruction changes nothing that launch fixes. -/
theorem Did.fixed (h : Did i s t) : t.fixed = s.fixed := by
  cases h with
  | stopped h => obtain ⟨f, rfl⟩ := h; rfl
  | wrote d _ h => exact h.fixed
  | moved m h => simp [h]
  | loaded d r ev _ _ h => simpa using h.fixed
  | stored h => obtain ⟨r, -, a, n, v, ev, -, rfl⟩ := h; simp
  | committed u hu h => simpa [h] using hu.fixed
  | fetched d u hu _ h => exact h.fixed.trans hu.fixed
  | answered h => obtain ⟨kind, id, regs, writes, -, rfl⟩ := h; rfl
  | delivered h => obtain ⟨mode, n, imm, regs, writes, -, rfl⟩ := h; rfl
  | called imm _ _ h => rw [h]; rfl
  | returned f rest _ _ h => rw [h]; rfl
  | ended x _ _ _ h => rw [h]; rfl

/-- What a step that gives a next state did: fetch raised a fault, or the instruction at `pc` was executed (R552). -/
theorem step_cases (h : step s = .next t) :
    s.status = .running ∧
      ((∃ f, fetch s = .error f ∧ t = { s with status := .faulted f }) ∨ ∃ i, fetch s = .ok i ∧ exec i s = .next t) := by
  unfold step at h
  split at h
  · next hrun =>
    split at h
    · next f hf => exact ⟨hrun, .inl ⟨f, hf, raise_cases h⟩⟩
    · next i hi => exact ⟨hrun, .inr ⟨i, hi, h⟩⟩
  · cases h
  · cases h

theorem step_fixed (h : step s = .next t) : t.fixed = s.fixed := by
  obtain ⟨-, ⟨f, -, rfl⟩ | ⟨i, -, hexec⟩⟩ := step_cases h
  · rfl
  · exact (exec_cases hexec).fixed

/-- Fetch reads `pc`, the program text and the parameters only (R114). -/
theorem fetch_congr (hpc : t.pc = s.pc) (hprog : t.prog = s.prog) (hparams : t.params = s.params) :
    fetch t = fetch s := by
  simp only [fetch, fetchSecond, hpc, hprog, hparams]

end Sys2Proof.Machine

/-- Settles O17: every step keeps what launch fixes, and of the state a fetch reads only that and `pc`. -/
theorem programIsImmutable : Obligations.ProgramIsImmutable := by
  intro s t h
  obtain ⟨hprog, hparams, hhelper, hpacket⟩ := State.fixed_eq_iff.mp (step_fixed h)
  exact ⟨hprog, hparams, hhelper, hpacket, fun pc => fetch_congr rfl hprog hparams⟩
end

section
/-! PROOFS. The byte swaps (R7, R300): reversing bytes splits at any byte, so each width's reversal is the one of its
halves, which change places. -/

open Sys2Proof Sys2Proof.Machine

namespace Sys2Proof.Machine

@[simp] theorem reversedBytes_byte (b : Byte) : reversedBytes 1 b.toNat = b.toNat := by
  simpa [reversedBytes] using b.isLt

/-- Reversing `m + n` bytes: the low `m` bytes, reversed, become the high ones. -/
theorem reversedBytes_add (m n v : Nat) :
    reversedBytes (m + n) v = reversedBytes m v * 2 ^ (8 * n) + reversedBytes n (v / 2 ^ (8 * m)) := by
  simp only [reversedBytes, List.range_add, List.map_append, List.sum_append, List.map_map, ← List.sum_map_mul_right]
  congr 2
  · refine List.map_congr_left fun k hk => ?_
    have hk : k < m := List.mem_range.mp hk
    rw [mul_assoc, ← pow_add]
    congr 2
    omega
  · refine List.map_congr_left fun k _ => ?_
    simp only [Function.comp_apply, Nat.div_div_eq_div_mul, ← pow_add, ← Nat.mul_add]
    congr 3
    omega

/-- Only the low `n` bytes count. -/
theorem reversedBytes_mod (n v : Nat) : reversedBytes n (v % 2 ^ (8 * n)) = reversedBytes n v := by
  unfold reversedBytes
  congr 1
  refine List.map_congr_left fun k hk => ?_
  have hn : 8 * n = 8 * k + (8 + 8 * (n - k - 1)) := by
    have := List.mem_range.mp hk
    omega
  have hdvd : 256 ∣ 2 ^ (8 + 8 * (n - k - 1)) := ⟨2 ^ (8 * (n - k - 1)), by rw [pow_add]; rfl⟩
  rw [hn, pow_add, Nat.mod_mul_right_div_self, Nat.mod_mod_of_dvd _ hdvd]

/-- The reversal of `2 * n` bytes is that of their low half, above that of their high half. -/
theorem toNat_append_reversed {w n : Nat} {v : BitVec w} {low high : BitVec (8 * n)}
    (hlow : low.toNat = reversedBytes n (v.extractLsb' 0 (8 * n)).toNat)
    (hhigh : high.toNat = reversedBytes n (v.extractLsb' (8 * n) (8 * n)).toNat) :
    (low ++ high).toNat = reversedBytes (n + n) v.toNat := by
  simp only [BitVec.extractLsb'_toNat, Nat.shiftRight_eq_div_pow, pow_zero, Nat.div_one,
    reversedBytes_mod] at hlow hhigh
  rw [BitVec.toNat_append, ← Nat.shiftLeft_add_eq_or_of_lt high.isLt, Nat.shiftLeft_eq, hlow, hhigh,
    reversedBytes_add]

theorem bswap16_toNat (v : BitVec 16) : (bswap16 v).toNat = reversedBytes 2 v.toNat :=
  toNat_append_reversed (n := 1) (reversedBytes_byte _).symm (reversedBytes_byte _).symm

theorem bswap32_toNat (v : BitVec 32) : (bswap32 v).toNat = reversedBytes 4 v.toNat :=
  toNat_append_reversed (n := 2) (bswap16_toNat _) (bswap16_toNat _)

theorem bswap64_toNat (v : BitVec 64) : (bswap64 v).toNat = reversedBytes 8 v.toNat :=
  toNat_append_reversed (n := 4) (bswap32_toNat _) (bswap32_toNat _)

/-- A byte swap whose register is written completes with the converted low bits, zero-extended (R300). -/
theorem writesOnly_of_swapBytes {i : Instr} {s : State} {d : Reg} {x : Word64} {w v : Nat} {f : BitVec w → BitVec w}
    (hexec : exec i s = swapBytes f d s) (hx : s.regs[d] = .written x) (hv : (f (x.setWidth w)).toNat = v) :
    writesOnly i s d v 1 := by
  rw [writesOnly, hexec, swapBytes, readReg_written hx, ← BitVec.ofNat_toNat, hv]
  rfl

/-- The three swaps of one width, given that width's reversal: on each host one of `le` and `be` keeps the low bytes and
the other reverses them, as `swap` does on both (R7, R300). -/
theorem swap_row_results {s : State} {d : Reg} {x : Word64} {n : Nat} {le be swap : Instr}
    {rev : BitVec (8 * n) → BitVec (8 * n)} (hrev : ∀ v, (rev v).toNat = reversedBytes n v.toNat)
    (hx : s.regs[d] = .written x) (hle : exec le s = swapBytes (toLittle s.params.endian rev) d s)
    (hbe : exec be s = swapBytes (toBig s.params.endian rev) d s) (hswap : exec swap s = swapBytes rev d s) :
    (s.params.endian = .little →
      writesOnly le s d (x.toNat % 2 ^ (8 * n)) 1 ∧ writesOnly be s d (reversedBytes n x.toNat) 1) ∧
    (s.params.endian = .big →
      writesOnly le s d (reversedBytes n x.toNat) 1 ∧ writesOnly be s d (x.toNat % 2 ^ (8 * n)) 1) ∧
    writesOnly swap s d (reversedBytes n x.toNat) 1 := by
  have hkept : (x.setWidth (8 * n)).toNat = x.toNat % 2 ^ (8 * n) := BitVec.toNat_setWidth ..
  have hreversed : (rev (x.setWidth (8 * n))).toNat = reversedBytes n x.toNat := by
    rw [hrev, hkept, reversedBytes_mod]
  refine ⟨fun he => ?little, fun he => ?big, writesOnly_of_swapBytes hswap hx hreversed⟩
  case little =>
    rw [he] at hle hbe
    exact ⟨writesOnly_of_swapBytes hle hx hkept, writesOnly_of_swapBytes hbe hx hreversed⟩
  case big =>
    rw [he] at hle hbe
    exact ⟨writesOnly_of_swapBytes hle hx hreversed, writesOnly_of_swapBytes hbe hx hkept⟩

end Sys2Proof.Machine

/-- Settles O33: the three widths are one lemma, `swap_row_results`, at their reversals. -/
theorem byteSwapResults : Obligations.ByteSwapResults := by
  intro s d x hx row hrow
  simp only [List.mem_cons, List.not_mem_nil, or_false] at hrow
  obtain rfl | rfl | rfl := hrow
  · exact swap_row_results (n := 2) bswap16_toNat hx rfl rfl rfl
  · exact swap_row_results (n := 4) bswap32_toNat hx rfl rfl rfl
  · exact swap_row_results (n := 8) bswap64_toNat hx rfl rfl rfl
end

section
/-! PROOFS. Fetch (R114, R501, R503): which words are refused, and what the slot at `pc` holds where an instruction is
accepted. Settles the statement on illegal instructions. -/

open Sys2Proof Sys2Proof.Machine

namespace Sys2Proof

/-- The low half of a canonical word holds every field but `imm` (R101). -/
theorem Fields.word_low (f : Fields) : f.word.extractLsb' 0 32 = f.offset ++ f.src ++ f.dst ++ f.opcode := by
  have hassoc : f.word = f.imm ++ (f.offset ++ f.src ++ f.dst ++ f.opcode) := by
    simp only [Fields.word, BitVec.append_assoc, BitVec.cast_eq]
  rw [hassoc, BitVec.extractLsb'_append_eq_right]

theorem append_eq_zero_iff {m n : Nat} {a : BitVec m} {b : BitVec n} : a ++ b = 0 ↔ a = 0 ∧ b = 0 := by
  constructor
  · intro h
    have ha : (a ++ b).extractLsb' n m = a := BitVec.extractLsb'_append_eq_left
    have hb : (a ++ b).extractLsb' 0 n = b := BitVec.extractLsb'_append_eq_right
    rw [h] at ha hb
    exact ⟨by simpa using ha.symm, by simpa using hb.symm⟩
  · rintro ⟨rfl, rfl⟩
    exact BitVec.zero_append_zero

/-- The check of R104 on a second slot is on its four fields other than `imm`. -/
theorem Fields.word_low_eq_zero_iff (f : Fields) :
    f.word.extractLsb' 0 32 = 0 ↔ ((f.offset = 0 ∧ f.src = 0) ∧ f.dst = 0) ∧ f.opcode = 0 := by
  rw [f.word_low, append_eq_zero_iff (m := 24), append_eq_zero_iff (m := 20), append_eq_zero_iff (m := 16)]

/-- A second slot with a used field among the unused ones completes no instruction (R104, R470). -/
theorem completeWide_error {i : Instr} {f : Fields}
    (h : f.opcode ≠ 0 ∨ f.dst ≠ 0 ∨ f.src ≠ 0 ∨ f.offset ≠ 0 ∨ (i.usesNext = false ∧ f.imm ≠ 0)) :
    ∃ r, completeWide i f = .error r := by
  unfold completeWide
  split
  · exact ⟨_, rfl⟩
  · next hlow =>
    obtain ⟨⟨⟨hoff, hsrc⟩, hdst⟩, hop⟩ := f.word_low_eq_zero_iff.mp (not_not.mp hlow)
    have himm : i.usesNext = false ∧ f.imm ≠ 0 := by simpa [hop, hdst, hsrc, hoff] using h
    exact ⟨_, if_pos (by simpa using himm)⟩

/-- Completing a wide instruction changes nothing of it but `next_imm`. -/
theorem completeWide_ok {i j : Instr} {f : Fields} (h : completeWide i f = .ok j) : j = i.withNext f.imm := by
  unfold completeWide at h
  split at h
  · cases h
  · split at h
    · cases h
    · exact (Except.ok.inj h).symm

@[simp] theorem Instr.isWide_withNext (i : Instr) (next : Word32) : (i.withNext next).isWide = i.isWide := by
  unfold Instr.withNext
  split <;> rfl

@[simp] theorem wellFormed_withNext (p : Params) (i : Instr) (next : Word32) :
    wellFormed p (i.withNext next) = wellFormed p i := by
  unfold Instr.withNext
  split <;> rfl

theorem wellFormed_iff {p : Params} {i : Instr} :
    wellFormed p i = true ↔ p.supports i.group = true ∧ p.refusesR10 i = false := by
  simp [wellFormed]

/-- With a read-only R10, no accepted instruction writes R10 through a register field (R34). -/
theorem writesReg_ne_of_wellFormed {p : Params} {i : Instr} (hro : p.r10ReadOnly = true)
    (h : wellFormed p i = true) : i.writesReg ≠ some 10 := by
  have hr10 := (wellFormed_iff.mp h).2
  simpa [Params.refusesR10, hro] using hr10

/-- A selected row is one of the table's, under the selector's value. -/
theorem mem_of_selectRow {n : Nat} {α : Type} {key : BitVec n} {rows : List (BitVec n × α)} {a : α}
    (h : selectRow key rows = .ok a) : (key, a) ∈ rows := by
  induction rows with
  | nil => cases h
  | cons row rest ih =>
    obtain ⟨k, b⟩ := row
    simp only [selectRow] at h
    split at h
    · next hkey => cases hkey; cases h; exact List.mem_cons_self
    · exact List.mem_cons_of_mem _ (ih h)

theorem readImm64_ok {rows : List (BitVec 4 × (Reg → Word32 → Instr))} {f : Fields} {i : Instr}
    (h : readImm64 rows f = .ok i) : ∃ mk d, (f.src, mk) ∈ rows ∧ i = mk d f.imm := by
  unfold readImm64 at h
  cases hrow : selectRow f.src rows with
  | error r => rw [hrow] at h; cases h
  | ok mk =>
    cases hoff : unused f.offset with
    | error r => rw [hrow, hoff] at h; cases h
    | ok u =>
      cases hd : asReg f.dst with
      | error r => rw [hrow, hoff, hd] at h; cases h
      | ok d =>
        rw [hrow, hoff, hd] at h
        exact ⟨mk, d, mem_of_selectRow hrow, (Except.ok.inj h).symm⟩

/-- A slot with opcode 0x18 starts a wide instruction or none (R104, R115). -/
theorem isWide_of_decodeFields {f : Fields} {i : Instr} (hop : f.opcode = 0x18) (h : decodeFields f = .ok i) :
    i.isWide = true := by
  have hcls : f.cls = 0#3 := by rw [Fields.cls, hop]; rfl
  have hmode : f.mode = 0#3 := by rw [Fields.mode, hop]; rfl
  have hsize : f.size = 3#2 := by rw [Fields.size, hop]; rfl
  simp only [decodeFields, hcls, decodeLd, hmode, hsize] at h
  obtain ⟨mk, d, hmem, rfl⟩ := readImm64_ok h
  simp only [List.mem_cons, Prod.mk.injEq, List.not_mem_nil, or_false] at hmem
  obtain ⟨-, rfl⟩ | ⟨-, rfl⟩ | ⟨-, rfl⟩ | ⟨-, rfl⟩ | ⟨-, rfl⟩ | ⟨-, rfl⟩ | ⟨-, rfl⟩ := hmem <;> rfl

end Sys2Proof

namespace Sys2Proof.Machine

variable {s : State} {first : Slot} {i : Instr}

/-- `pc` is in the program, at the first slot of an instruction, and the slot there is the given one (R114). -/
structure State.AtFirstSlot (s : State) (first : Slot) : Prop where
  nonneg : 0 ≤ s.pc
  slot : s.prog[s.pc.toNat]? = some first
  notSecond : isSecondSlot s.params.endian s.prog s.pc.toNat = false

theorem State.AtFirstSlot.inProgram (h : s.AtFirstSlot first) : ¬ (s.pc < 0 ∨ (s.prog.length : Int) ≤ s.pc) := by
  have hnonneg := h.nonneg
  obtain ⟨hlt, -⟩ := List.getElem?_eq_some_iff.mp h.slot
  omega

/-- A first slot that holds no instruction the parameters accept is refused, with its canonical word (R114, R501). -/
theorem fetch_refused (h : s.AtFirstSlot first)
    (hno : ∀ i, decodeFields (first.fields s.params.endian) = .ok i → wellFormed s.params i = false) :
    fetch s = .error (.illegalInstruction s.pc (first.fields s.params.endian).word) := by
  simp only [fetch, if_neg h.inProgram, h.notSecond, h.slot]
  cases hdec : decodeFields (first.fields s.params.endian) with
  | error r => rfl
  | ok i =>
    cases hgroup : s.params.supports i.group with
    | false => simp [hgroup]
    | true =>
      have hr10 : s.params.refusesR10 i = true := by simpa [wellFormed, hgroup] using hno i hdec
      simp [hgroup, hr10]

/-- A first slot that holds an accepted instruction gives it, once the second slot completes it if it is wide (R114). -/
theorem fetch_accepted (h : s.AtFirstSlot first) (hdec : decodeFields (first.fields s.params.endian) = .ok i)
    (hwf : wellFormed s.params i = true) : fetch s = if i.isWide then fetchSecond s i else .ok i := by
  obtain ⟨hgroup, hr10⟩ := wellFormed_iff.mp hwf
  simp [fetch, if_neg h.inProgram, h.notSecond, h.slot, hdec, hgroup, hr10]

/-- A second slot that completes nothing is refused with that slot's canonical word (R114, R501). -/
theorem fetchSecond_refused {second : Slot} {r : Reject} (hslot : s.prog[s.pc.toNat + 1]? = some second)
    (hbad : completeWide i (second.fields s.params.endian) = .error r) :
    fetchSecond s i = .error (.illegalInstruction s.pc (second.fields s.params.endian).word) := by
  simp only [fetchSecond, hslot, hbad]

theorem fetchSecond_ok {j : Instr} (h : fetchSecond s j = .ok i) : ∃ next, i = j.withNext next := by
  unfold fetchSecond at h
  split at h
  · cases h
  · split at h
    · cases h
    · next hdone => cases h; exact ⟨_, completeWide_ok hdone⟩

/-- Fetch gives an instruction only at a first slot (R114, R502, R503). -/
theorem exists_atFirstSlot_of_fetch (h : fetch s = .ok i) : ∃ first, s.AtFirstSlot first := by
  unfold fetch at h
  split at h
  · cases h
  · next hin =>
    split at h
    · cases h
    · next hfirst =>
      split at h
      · cases h
      · next first hslot => exact ⟨first, by omega, hslot, by simpa using hfirst⟩

/-- What fetch gives is the instruction of the first slot at `pc`, which the parameters accept, up to `next_imm`
(R114). -/
theorem fetch_cases (h : fetch s = .ok i) :
    ∃ first j, s.AtFirstSlot first ∧ decodeFields (first.fields s.params.endian) = .ok j ∧
      wellFormed s.params j = true ∧ (i = j ∨ ∃ next, i = j.withNext next) := by
  obtain ⟨first, hfirst⟩ := exists_atFirstSlot_of_fetch h
  by_cases hok : ∃ j, decodeFields (first.fields s.params.endian) = .ok j ∧ wellFormed s.params j = true
  · obtain ⟨j, hdec, hwf⟩ := hok
    rw [fetch_accepted hfirst hdec hwf] at h
    refine ⟨first, j, hfirst, hdec, hwf, ?_⟩
    split at h
    · exact .inr (fetchSecond_ok h)
    · exact .inl (Except.ok.inj h).symm
  · have hno : ∀ j, decodeFields (first.fields s.params.endian) = .ok j → wellFormed s.params j = false :=
      fun j hdec => by simpa [hdec] using not_exists.mp hok j
    rw [fetch_refused hfirst hno] at h
    cases h

theorem wellFormed_of_fetch (h : fetch s = .ok i) : wellFormed s.params i = true := by
  obtain ⟨first, j, -, -, hwf, rfl | ⟨next, rfl⟩⟩ := fetch_cases h
  · exact hwf
  · rwa [wellFormed_withNext]

/-- The slot after an instruction of one slot is a first slot (R114, R322). -/
theorem next_isFirstSlot_of_fetch (h : fetch s = .ok i) (hnarrow : i.isWide = false) :
    0 ≤ s.pc + 1 ∧ isSecondSlot s.params.endian s.prog (s.pc + 1).toNat = false := by
  obtain ⟨first, j, hfirst, hdec, -, hij⟩ := fetch_cases h
  have hj : j.isWide = false := by
    obtain rfl | ⟨next, rfl⟩ := hij
    · exact hnarrow
    · rwa [Instr.isWide_withNext] at hnarrow
  have hop : (first.fields s.params.endian).opcode ≠ 0x18 := fun hop => by
    rw [isWide_of_decodeFields hop hdec] at hj
    cases hj
  have hnonneg := hfirst.nonneg
  refine ⟨by omega, ?_⟩
  rw [show (s.pc + 1).toNat = s.pc.toNat + 1 by omega]
  simp only [isSecondSlot, hfirst.slot, beq_false_of_ne hop, Bool.false_and]

theorem step_of_fetch_error {f : Fault} (hrun : s.status = .running) (h : fetch s = .error f) :
    step s = .next { s with status := .faulted f } := by
  simp only [step, hrun, h, raise_next]

theorem step_of_fetch_ok (hrun : s.status = .running) (h : fetch s = .ok i) : step s = exec i s := by
  simp only [step, hrun, h]

end Sys2Proof.Machine

/-- Settles O14: a refused first slot and a refused second slot, each through the lemma of its check. -/
theorem illegalInstructions : Obligations.IllegalInstructions := by
  intro s first hrun hnonneg hslot hsecond
  have hfirst : s.AtFirstSlot first := ⟨hnonneg, hslot, hsecond⟩
  refine ⟨fun hno => step_of_fetch_error hrun (fetch_refused hfirst fun i hdec => ?_),
    fun i second hdec hwf hwide hnext hbad => step_of_fetch_error hrun ?_⟩
  · obtain hgroup | ⟨hro, hr10⟩ := hno i hdec
    · simp [wellFormed, hgroup]
    · simp [wellFormed, Params.refusesR10, hro, hr10]
  · obtain ⟨r, hr⟩ := completeWide_error hbad
    rw [fetch_accepted hfirst hdec hwf, if_pos hwide, fetchSecond_refused hnext hr]
end

section
/-! PROOFS. The invariants of the machine (R34, R38, R42, R43): what each thing that an instruction can do leaves of
memory's form, the call stack, the status and R10. Settles the statements on them, read off `exec_cases`, and those on
what reset holds of them. -/

open Sys2Proof Sys2Proof.Machine

namespace Sys2Proof.Machine

variable {s t u : State} {i : Instr}

/-! ## Memory -/

/-- An admitted store keeps memory canonical, since admission bounds it by 2^64 (R61, R68). -/
theorem State.put_mem_wf {a : Word64} {n : Nat} (v : Word64) (hwf : s.mem.wf) (ha : a.toNat + n ≤ 2 ^ 64) :
    (s.put a n v).mem.wf :=
  Memory.wf_store hwf (by rwa [hostBytes_length])

theorem Committed.mem_wf (h : Committed s u) (hwf : s.mem.wf) : u.mem.wf := by
  obtain ⟨r, -, a, n, old, new, ha, rfl⟩ := h
  cases new with
  | none => rwa [State.commit_none_mem]
  | some v =>
    rw [State.commit_some_mem]
    exact State.put_mem_wf v hwf ha

theorem Wrote.mem_eq {d : Reg} (h : Wrote d s t) : t.mem = s.mem := by
  obtain ⟨v, n, rfl⟩ := h
  rfl

theorem Did.mem_wf (h : Did i s t) (hwf : s.mem.wf) : t.mem.wf := by
  cases h with
  | stopped h => obtain ⟨f, rfl⟩ := h; exact hwf
  | wrote d _ h => rwa [h.mem_eq]
  | moved m h => rwa [h, State.advance_mem]
  | loaded d r ev _ _ h => rwa [h.mem_eq, State.record_mem]
  | stored h =>
    obtain ⟨r, -, a, n, v, ev, ha, rfl⟩ := h
    rw [State.advance_mem, State.record_mem]
    exact State.put_mem_wf v hwf ha
  | committed u hu h => rw [h, State.advance_mem]; exact hu.mem_wf hwf
  | fetched d u hu _ h => rw [h.mem_eq]; exact hu.mem_wf hwf
  | answered h => obtain ⟨kind, id, regs, writes, -, rfl⟩ := h; exact applyWrites_wf hwf
  | delivered h => obtain ⟨mode, n, imm, regs, writes, -, rfl⟩ := h; exact applyWrites_wf hwf
  | called imm _ _ h => rwa [h]
  | returned f rest _ _ h => rwa [h]
  | ended x _ _ _ h => rwa [h]

/-! ## The call stack and the status -/

/-- Where the run stands: the call stack and the status (R38, R43). -/
def State.control (s : State) : List Frame × Status := (s.callStack, s.status)

theorem State.control_eq_iff : t.control = s.control ↔ t.callStack = s.callStack ∧ t.status = s.status := by
  simp [State.control]

@[simp] theorem State.advance_control (d : Int) : (s.advance d).control = s.control := rfl

@[simp] theorem State.record_control (r : Region) (ev : Event) : (s.record r ev).control = s.control := by
  simp [State.control]

theorem Wrote.control {d : Reg} (h : Wrote d s t) : t.control = s.control := by
  obtain ⟨v, n, rfl⟩ := h
  rfl

theorem Committed.control (h : Committed s u) : u.control = s.control := by
  obtain ⟨r, -, a, n, old, new, -, rfl⟩ := h
  simp [State.control]

/-- What an instruction can do to the call stack and the status: nothing, a fault, a push by CALL_LOCAL below the depth
limit, a pop by EXIT, or the EXIT that ends the run (R382, R384, R387, R500). -/
inductive ControlChange (i : Instr) (s t : State) : Prop
  | kept : t.control = s.control → ControlChange i s t
  | stopped : Stopped s t → ControlChange i s t
  | pushed (imm : Word32) : i = .callLocal imm → s.depthReached = false →
      t.callStack = s.pushFrame.callStack → t.status = s.status → ControlChange i s t
  | popped (f : Frame) : i = .exit → s.callStack = f :: t.callStack → t.status = s.status → ControlChange i s t
  | ended (x : Word64) : i = .exit → s.callStack = [] → s.regs[(0 : Reg)] = .written x →
      t = { s with status := .exited x } → ControlChange i s t

theorem Did.controlChange (h : Did i s t) : ControlChange i s t := by
  cases h with
  | stopped h => exact .stopped h
  | wrote d _ h => exact .kept h.control
  | moved m h => exact .kept (by rw [h, State.advance_control])
  | loaded d r ev _ _ h => exact .kept (by rw [h.control, State.record_control])
  | stored h => obtain ⟨r, -, a, n, v, ev, -, rfl⟩ := h; exact .kept (State.record_control ..)
  | committed u hu h => exact .kept (by rw [h, State.advance_control, hu.control])
  | fetched d u hu _ h => exact .kept (h.control.trans hu.control)
  | answered h => obtain ⟨kind, id, regs, writes, -, rfl⟩ := h; exact .kept rfl
  | delivered h => obtain ⟨mode, n, imm, regs, writes, -, rfl⟩ := h; exact .kept rfl
  | called imm hi hd h => exact .pushed imm hi hd (by rw [h]; rfl) (by rw [h]; rfl)
  | returned f rest hi hs h => exact .popped f hi (by rw [h, hs]) (by rw [h])
  | ended x hi hs hx h => exact .ended x hi hs hx h

/-- The frame that a call pushes holds what the convention saves (R386). -/
theorem State.saved_fits (s : State) (ret : Int) : Frame.fits s.params.localCallConv ⟨ret, s.saved⟩ = true := by
  cases hconv : s.params.localCallConv <;> simp [Frame.fits, State.saved, hconv]

/-- Whether the call stack is well-formed depends on it, the program text and the parameters only. -/
theorem State.stackOk_congr (hstack : t.callStack = s.callStack) (hfixed : t.fixed = s.fixed) :
    t.stackOk ↔ s.stackOk := by
  obtain ⟨hprog, hparams, -, -⟩ := State.fixed_eq_iff.mp hfixed
  simp only [State.stackOk, hstack, hprog, hparams]

/-- A call below the depth limit whose return slot is a first slot keeps the call stack well-formed (R382, R386). -/
theorem State.stackOk_of_push (hok : s.stackOk) (hd : s.depthReached = false) (hret : 0 ≤ s.pc + 1)
    (hfirst : isSecondSlot s.params.endian s.prog (s.pc + 1).toNat = false) : s.pushFrame.stackOk := by
  obtain ⟨hframes, hdepth⟩ := hok
  refine ⟨fun f hf => ?_, fun n hn => ?_⟩
  · obtain rfl | hf := List.mem_cons.mp hf
    · exact ⟨s.saved_fits _, hret, hfirst⟩
    · exact hframes f hf
  · have hlt : ¬ n ≤ s.callStack.length := by
      have hn : s.params.maxCallDepth = some n := hn
      simpa [State.depthReached, hn] using hd
    simp only [State.pushFrame_callStack, List.length_cons]
    omega

/-- A return keeps the call stack well-formed (R384). -/
theorem State.stackOk_of_pop {f : Frame} {rest : List Frame} (hok : s.stackOk) (hs : s.callStack = f :: rest) :
    ({ s with callStack := rest } : State).stackOk := by
  obtain ⟨hframes, hdepth⟩ := hok
  rw [hs] at hframes hdepth
  exact ⟨fun g hg => hframes g (List.mem_cons_of_mem _ hg), fun n hn => Nat.le_of_succ_le (hdepth n hn)⟩

theorem Did.stackOk (h : Did i s t) (hfetch : fetch s = .ok i) (hok : s.stackOk) : t.stackOk := by
  cases h.controlChange with
  | kept hkept => exact (State.stackOk_congr (State.control_eq_iff.mp hkept).1 h.fixed).mpr hok
  | stopped hstop => obtain ⟨f, rfl⟩ := hstop; exact hok
  | pushed imm hi hd hpush _ =>
    obtain ⟨hret, hfirst⟩ := next_isFirstSlot_of_fetch hfetch (by rw [hi]; rfl)
    exact (State.stackOk_congr hpush h.fixed).mpr (State.stackOk_of_push hok hd hret hfirst)
  | popped f _ hpop _ =>
    exact (State.stackOk_congr (t := t) (s := { s with callStack := t.callStack }) rfl h.fixed).mpr
      (State.stackOk_of_pop hok hpop)
  | ended x _ _ _ hend => rw [hend]; exact hok

/-! ## R10 -/

theorem Wrote.regs_ne {d q : Reg} (h : Wrote d s t) (hne : d ≠ q) : t.regs[q] = s.regs[q] := by
  obtain ⟨v, n, rfl⟩ := h
  rw [State.advance_regs, State.setReg_get_ne _ _ _ _ hne]

theorem Committed.regs_eq (h : Committed s u) : u.regs = s.regs := by
  obtain ⟨r, -, a, n, old, new, -, rfl⟩ := h
  exact State.commit_regs ..

/-- Under `pc_only` no frame of a well-formed call stack has saved a register (R38, R386). -/
theorem State.saved_none_of_stackOk {f : Frame} (hconv : s.params.localCallConv = .pcOnly) (hok : s.stackOk)
    (hf : f ∈ s.callStack) : f.saved = none := by
  obtain ⟨hfits, -⟩ := hok.1 f hf
  simpa [Frame.fits, hconv] using hfits

/-- R10 changes only by a register field that names it, a frame's saved registers, or an answer of the platform (R34,
R385, R386, R490). -/
theorem Did.r10_eq (h : Did i s t) (hwrites : i.writesReg ≠ some 10) (hconv : s.params.localCallConv = .pcOnly)
    (hok : s.stackOk)
    (hhelper : ∀ kind id regs writes, s.helperAnswer kind id = some (.ok regs writes) →
      regs[(10 : Reg)] = s.regs[(10 : Reg)])
    (hpacket : ∀ mode n imm regs writes, s.packetAnswer mode n imm = .ok regs writes →
      regs[(10 : Reg)] = s.regs[(10 : Reg)]) : t.regs[(10 : Reg)] = s.regs[(10 : Reg)] := by
  have hne : ∀ {d : Reg}, i.writesReg = some d → d ≠ 10 := fun hd h10 => hwrites (h10 ▸ hd)
  cases h with
  | stopped h => obtain ⟨f, rfl⟩ := h; rfl
  | wrote d hd h => exact h.regs_ne (hne hd)
  | moved m h => rw [h, State.advance_regs]
  | loaded d r ev _ hd h => rw [h.regs_ne (hne hd), State.record_regs]
  | stored h => obtain ⟨r, -, a, n, v, ev, -, rfl⟩ := h; simp
  | committed u hu h => rw [h, State.advance_regs, hu.regs_eq]
  | fetched d u hu hd h =>
    have hd10 : d ≠ 10 := by
      obtain hd | rfl := hd
      · exact hne hd
      · decide
    rw [h.regs_ne hd10, hu.regs_eq]
  | answered h => obtain ⟨kind, id, regs, writes, ha, rfl⟩ := h; exact hhelper kind id regs writes ha
  | delivered h => obtain ⟨mode, n, imm, regs, writes, ha, rfl⟩ := h; exact hpacket mode n imm regs writes ha
  | called imm _ _ h => rw [h, State.jumpFar_regs, State.pushFrame_regs, State.calleeRegs_pcOnly _ hconv]
  | returned f rest _ hs h =>
    have hsaved : f.saved = none := State.saved_none_of_stackOk hconv hok (by rw [hs]; exact List.mem_cons_self)
    rw [h, hsaved, returnRegs_none]
  | ended x _ _ _ h => rw [h]

end Sys2Proof.Machine

/-- Settles O19: a fault leaves memory alone, and an executed instruction keeps its form (`Did.mem_wf`). -/
theorem memoryStaysCanonical : Obligations.MemoryStaysCanonical := by
  intro s t hwf h
  obtain ⟨-, ⟨f, -, rfl⟩ | ⟨i, -, hexec⟩⟩ := step_cases h
  · exact hwf
  · exact (exec_cases hexec).mem_wf hwf

/-- Settles O20: CALL_LOCAL takes one slot, so the slot it returns to is a first slot (`next_isFirstSlot_of_fetch`). -/
theorem callStackStaysWellFormed : Obligations.CallStackStaysWellFormed := by
  intro s t hok h
  obtain ⟨-, ⟨f, -, rfl⟩ | ⟨i, hfetch, hexec⟩⟩ := step_cases h
  · exact hok
  · exact (exec_cases hexec).stackOk hfetch hok

/-- Settles O21: of what an instruction can do, a push and a pop alone change the call stack. -/
theorem callStackChangedOnlyByCallAndExit : Obligations.CallStackChangedOnlyByCallAndExit := by
  intro s t i hexec hne
  cases (exec_cases hexec).controlChange with
  | kept hkept => exact absurd (State.control_eq_iff.mp hkept).1 hne
  | stopped hstop => obtain ⟨f, rfl⟩ := hstop; exact absurd rfl hne
  | pushed imm hi => exact .inr ⟨imm, hi⟩
  | popped f hi => exact .inl hi
  | ended x hi => exact .inl hi

/-- Settles O22: a running machine that ends has neither kept its status nor raised a fault. -/
theorem onlyExitEndsTheRun : Obligations.OnlyExitEndsTheRun := by
  intro s t v h hv
  obtain ⟨hrun, ⟨f, -, rfl⟩ | ⟨i, hfetch, hexec⟩⟩ := step_cases h
  · cases hv
  · have hkept : t.status ≠ s.status := by simp [hv, hrun]
    cases (exec_cases hexec).controlChange with
    | kept hcontrol => exact absurd (State.control_eq_iff.mp hcontrol).2 hkept
    | stopped hstop => obtain ⟨f, rfl⟩ := hstop; cases hv
    | pushed _ _ _ _ hstatus => exact absurd hstatus hkept
    | popped _ _ _ hstatus => exact absurd hstatus hkept
    | ended x hi hs hx hend =>
      subst hi hend
      cases hv
      exact ⟨hfetch, hs, hx, rfl⟩

/-- Settles O23: fetch refuses an instruction whose register field names a read-only R10. -/
theorem readOnlyR10IsKept : Obligations.ReadOnlyR10IsKept := by
  intro s t hro hconv hok hhelper hpacket h
  obtain ⟨-, ⟨f, -, rfl⟩ | ⟨i, hfetch, hexec⟩⟩ := step_cases h
  · rfl
  · have hwrites := writesReg_ne_of_wellFormed hro (wellFormed_of_fetch hfetch)
    exact (exec_cases hexec).r10_eq hwrites hconv hok hhelper hpacket

/-- Settles O5: read off `State.reset`. -/
theorem launchState : Obligations.LaunchState := ⟨rfl, rfl, rfl⟩

/-- Settles O8: at reset no byte is written and no frame is pushed. -/
theorem launchMeetsInvariants : Obligations.LaunchMeetsInvariants :=
  ⟨reset_mem_wf, State.stackOk_of_empty rfl, by decide⟩
end

section
/-! PROOFS. What an instruction gives before its effect (R33, R504, R511): it reads its registers in order and reports
the first unwritten one; and it always gives a next state (R552). Both follow the shape of the shared operations, each
of which may raise and hands the rest of the instruction what it read. Settles the statements on the two. -/

open Sys2Proof Sys2Proof.Machine

namespace Sys2Proof.Machine

variable {s : State} {d src q : Reg} {b : Operand} {n : Nat} {off : Off} {imm : Word32} {rest : List Reg}

/-! ## Every instruction gives a next state -/

/-- The result is a next state. -/
def HasNext (res : Result) : Prop := ∃ t, res = .next t

theorem hasNext_next (t : State) : HasNext (.next t) := ⟨t, rfl⟩

theorem raise_hasNext (f : Fault) (s : State) : HasNext (raise f s) := hasNext_next _

theorem finish_hasNext (s : State) (r : Reg) (v : Word64) (m : Int) : HasNext (finish s r v m) := hasNext_next _

section
variable {k : Word64 → Result} {kmem : Word64 → State → Result} {kstore : State → Result}

theorem readReg_hasNext (hk : ∀ v, HasNext (k v)) : HasNext (readReg q s k) := by
  cases e : s.regs[q] with
  | written v => rw [readReg_written e]; exact hk v
  | unwritten => rw [readReg_unwritten e]; exact raise_hasNext _ s

theorem memRead_hasNext (a : Word64) (hk : ∀ v t, HasNext (kmem v t)) : HasNext (memRead a n s kmem) := by
  unfold memRead
  split
  · exact raise_hasNext _ s
  · split
    · exact raise_hasNext _ s
    · split
      · exact raise_hasNext _ s
      · exact hk _ _

theorem memWrite_hasNext (a v : Word64) (hk : ∀ t, HasNext (kstore t)) : HasNext (memWrite a n v s kstore) := by
  unfold memWrite
  split
  · exact raise_hasNext _ s
  · split
    · exact raise_hasNext _ s
    · exact hk _

theorem atomicUpdate_hasNext (a : Word64) (f : Word64 → Option Word64) (hk : ∀ v t, HasNext (kmem v t)) :
    HasNext (atomicUpdate a n f s kmem) := by
  unfold atomicUpdate
  split
  · exact raise_hasNext _ s
  · split
    · exact raise_hasNext _ s
    · split
      · exact raise_hasNext _ s
      · split
        · exact raise_hasNext _ s
        · exact hk _ _

theorem platform_hasNext (o : Option Word64) (query : PlatformQuery) (hk : ∀ v, HasNext (k v)) :
    HasNext (platform o query s k) := by
  cases o with
  | some v => exact hk v
  | none => exact raise_hasNext _ s
end

theorem callPlatform_hasNext (kind : HelperKind) (id : Word32) (s : State) : HasNext (callPlatform kind id s) := by
  unfold callPlatform
  split
  · exact raise_hasNext _ s
  · exact raise_hasNext _ s
  · exact hasNext_next _

theorem execCallLocal_hasNext (imm : Word32) (s : State) : HasNext (execCallLocal imm s) := by
  unfold execCallLocal
  split
  · exact raise_hasNext _ s
  · exact hasNext_next _

theorem execExit_hasNext (s : State) : HasNext (execExit s) := by
  unfold execExit
  split
  · exact readReg_hasNext fun _ => hasNext_next _
  · exact hasNext_next _

theorem packetEffect_hasNext (answer : PacketEffect) (w : Word64) (s : State) :
    HasNext (packetEffect answer w s) := by
  cases answer with
  | ok regs writes => exact hasNext_next _
  | fault f => exact raise_hasNext f s
  | undefined => exact raise_hasNext _ s

theorem packetAbs_hasNext (w : Word64) : HasNext (packetAbs n imm w s) := by
  unfold packetAbs
  split
  · exact packetEffect_hasNext _ w s
  · exact raise_hasNext _ s

theorem packetInd_hasNext (w : Word64) : HasNext (packetInd n src imm w s) := by
  unfold packetInd
  split
  · exact readReg_hasNext fun _ => packetEffect_hasNext _ w s
  · exact raise_hasNext _ s

/-! ## The first unwritten register -/

/-- The result reports the first unwritten one of these registers, if there is one (R504, R511). -/
def Reports (s : State) (res : Result) (regs : List Reg) : Prop :=
  ∀ r, regs.find? (fun q => s.regs[q] = .unwritten) = some r → res = raise (.uninitRegister r) s

theorem reports_nil (res : Result) : Reports s res [] := fun r h => by cases h

/-- Reading a register and going on reports that register first, and then what the rest of the instruction does. -/
theorem readReg_reports {k : Word64 → Result} (hk : ∀ v, Reports s (k v) rest) :
    Reports s (readReg q s k) (q :: rest) := by
  intro r hr
  cases e : s.regs[q] with
  | written v =>
    rw [List.find?_cons_of_neg (by rw [e]; simp)] at hr
    rw [readReg_written e]
    exact hk v r hr
  | unwritten =>
    rw [List.find?_cons_of_pos (by rw [e]; simp)] at hr
    cases hr
    exact readReg_unwritten e

/-! ## The two together -/

/-- The result is a next state, and reports the first unwritten one of these registers. -/
structure Starts (s : State) (res : Result) (regs : List Reg) : Prop where
  hasNext : HasNext res
  reports : Reports s res regs

theorem HasNext.starts {res : Result} (h : HasNext res) : Starts s res [] := ⟨h, reports_nil res⟩

theorem readReg_starts {k : Word64 → Result} (hk : ∀ v, Starts s (k v) rest) :
    Starts s (readReg q s k) (q :: rest) :=
  ⟨readReg_hasNext fun v => (hk v).hasNext, readReg_reports fun v => (hk v).reports⟩

/-- The registers that a source operand reads (R106). -/
def Operand.regs (b : Operand) : List Reg :=
  match b with
  | .imm _ => []
  | .reg r => [r]

theorem source32_starts {k : Word32 → Result} (hk : ∀ v, HasNext (k v)) : Starts s (source32 b s k) b.regs := by
  cases b with
  | imm v => exact (hk v).starts
  | reg r => exact readReg_starts fun v => (hk (low32 v)).starts

theorem source64_starts {k : Word64 → Result} (hk : ∀ v, HasNext (k v)) : Starts s (source64 b s k) b.regs := by
  cases b with
  | imm v => exact (hk (sext32 v)).starts
  | reg r => exact readReg_starts fun v => (hk v).starts

/-! ## The families' shared operations -/

theorem alu32_starts (f : Word32 → Word32 → Word32) : Starts s (alu32 f d b s) (d :: b.regs) :=
  readReg_starts fun _ => source32_starts fun _ => finish_hasNext ..

theorem neg32_starts : Starts s (neg32 d s) [d] := readReg_starts fun _ => (finish_hasNext ..).starts

theorem move32_starts (f : Word32 → Word32) : Starts s (move32 f d b s) b.regs :=
  source32_starts fun _ => finish_hasNext ..

theorem alu64_starts (f : Word64 → Word64 → Word64) : Starts s (alu64 f d b s) (d :: b.regs) :=
  readReg_starts fun _ => source64_starts fun _ => finish_hasNext ..

theorem neg64_starts : Starts s (neg64 d s) [d] := readReg_starts fun _ => (finish_hasNext ..).starts

theorem move64_starts (f : Word64 → Word64) : Starts s (move64 f d b s) b.regs :=
  source64_starts fun _ => finish_hasNext ..

theorem swapBytes_starts {w : Nat} (f : BitVec w → BitVec w) : Starts s (swapBytes f d s) [d] :=
  readReg_starts fun _ => (finish_hasNext ..).starts

theorem branch64_starts (c : Cond) : Starts s (branch64 c d b off s) (d :: b.regs) :=
  readReg_starts fun _ => source64_starts fun _ => hasNext_next _

theorem branch32_starts (c : Cond) : Starts s (branch32 c d b off s) (d :: b.regs) :=
  readReg_starts fun _ => source32_starts fun _ => hasNext_next _

theorem load_starts (ext : Word64 → Word64) : Starts s (load n ext d src off s) [src] :=
  readReg_starts fun _ => (memRead_hasNext _ fun _ _ => finish_hasNext ..).starts

theorem storeImmediate_starts : Starts s (storeImmediate n d off imm s) [d] :=
  readReg_starts fun _ => (memWrite_hasNext _ _ fun _ => hasNext_next _).starts

theorem storeRegister_starts : Starts s (storeRegister n d src off s) [d, src] :=
  readReg_starts fun _ => readReg_starts fun _ => (memWrite_hasNext _ _ fun _ => hasNext_next _).starts

theorem atomicSimple_starts (f : Word64 → Word64 → Word64) : Starts s (atomicSimple n f d src off s) [d, src] :=
  readReg_starts fun _ => readReg_starts fun _ => (atomicUpdate_hasNext _ _ fun _ _ => hasNext_next _).starts

theorem atomicFetch_starts (f : Word64 → Word64 → Word64) : Starts s (atomicFetch n f d src off s) [d, src] :=
  readReg_starts fun _ => readReg_starts fun _ => (atomicUpdate_hasNext _ _ fun _ _ => finish_hasNext ..).starts

theorem atomicCompare_starts : Starts s (atomicCompare n d src off s) [d, src, 0] :=
  readReg_starts fun _ => readReg_starts fun _ => readReg_starts fun _ =>
    (atomicUpdate_hasNext _ _ fun _ _ => finish_hasNext ..).starts

/-! ## Every instruction -/

/-- Every instruction gives a next state, and reports the first unwritten register that it reads (R33, R504, R552). -/
theorem exec_starts (i : Instr) (s : State) : Starts s (exec i s) (readsRegs i) := by
  cases i with
  | add32K | add32X | sub32K | sub32X | mul32K | mul32X | div32K | div32X | sdiv32K | sdiv32X | or32K | or32X
    | and32K | and32X | lsh32K | lsh32X | rsh32K | rsh32X | mod32K | mod32X | smod32K | smod32X | xor32K | xor32X
    | arsh32K | arsh32X =>
    simp only [exec]
    exact alu32_starts _
  | neg32 => exact neg32_starts
  | mov32K | mov32X | movsx32From8 | movsx32From16 =>
    simp only [exec]
    exact move32_starts _
  | add64K | add64X | sub64K | sub64X | mul64K | mul64X | div64K | div64X | sdiv64K | sdiv64X | or64K | or64X
    | and64K | and64X | lsh64K | lsh64X | rsh64K | rsh64X | mod64K | mod64X | smod64K | smod64X | xor64K | xor64X
    | arsh64K | arsh64X =>
    simp only [exec]
    exact alu64_starts _
  | neg64 => exact neg64_starts
  | mov64K | mov64X | movsx64From8 | movsx64From16 | movsx64From32 =>
    simp only [exec]
    exact move64_starts _
  | le16 | le32 | le64 | be16 | be32 | be64 | bswap16 | bswap32 | bswap64 => exact swapBytes_starts _
  | ja | ja32 => exact (hasNext_next _).starts
  | jeqK | jeqX | jgtK | jgtX | jgeK | jgeX | jsetK | jsetX | jneK | jneX | jsgtK | jsgtX | jsgeK | jsgeX | jltK
    | jltX | jleK | jleX | jsltK | jsltX | jsleK | jsleX => exact branch64_starts _
  | jeq32K | jeq32X | jgt32K | jgt32X | jge32K | jge32X | jset32K | jset32X | jne32K | jne32X | jsgt32K | jsgt32X
    | jsge32K | jsge32X | jlt32K | jlt32X | jle32K | jle32X | jslt32K | jslt32X | jsle32K | jsle32X =>
    exact branch32_starts _
  | callHelper | callBtf => exact (callPlatform_hasNext ..).starts
  | callLocal => exact (execCallLocal_hasNext ..).starts
  | exit => exact (execExit_hasNext s).starts
  | ldxb | ldxh | ldxw | ldxdw | ldxsb | ldxsh | ldxsw => exact load_starts _
  | stb | sth | stw | stdw => exact storeImmediate_starts
  | stxb | stxh | stxw | stxdw => exact storeRegister_starts
  | atomicAdd32 | atomicOr32 | atomicAnd32 | atomicXor32 | atomicAdd64 | atomicOr64 | atomicAnd64 | atomicXor64 =>
    exact atomicSimple_starts _
  | atomicFetchAdd32 | atomicFetchOr32 | atomicFetchAnd32 | atomicFetchXor32 | atomicXchg32 | atomicFetchAdd64
    | atomicFetchOr64 | atomicFetchAnd64 | atomicFetchXor64 | atomicXchg64 => exact atomicFetch_starts _
  | atomicCmpxchg32 | atomicCmpxchg64 => exact atomicCompare_starts
  | lddw => exact (finish_hasNext ..).starts
  | ldMapFd | ldVarAddr | ldCodeAddr | ldMapIdx => exact (platform_hasNext _ _ fun _ => finish_hasNext ..).starts
  | ldMapValFd | ldMapValIdx =>
    exact (platform_hasNext _ _ fun _ => platform_hasNext _ _ fun _ => finish_hasNext ..).starts
  | ldabsw | ldabsh | ldabsb => exact (packetAbs_hasNext _).starts
  | ldindw | ldindh | ldindb => exact (packetInd_hasNext _).starts

end Sys2Proof.Machine

/-- Settles O15: a fetch that fails raises, and every instruction gives a next state (`exec_starts`). -/
theorem stepsExactlyWhileRunning : Obligations.StepsExactlyWhileRunning := by
  refine fun s => ⟨fun hrun => ?_, fun f hfault => by simp only [step, hfault], fun v hend => by simp only [step, hend]⟩
  cases hfetch : fetch s with
  | error f => exact ⟨_, step_of_fetch_error hrun hfetch⟩
  | ok i => rw [step_of_fetch_ok hrun hfetch]; exact (exec_starts i s).hasNext

/-- Settles O25: the registers in the order each family's operation reads them (`exec_starts`). -/
theorem firstUnwrittenRegisterFaults : Obligations.FirstUnwrittenRegisterFaults :=
  fun i s => (exec_starts i s).reports
end

section
/-! PROOFS. What is recorded (R72): the event history changes where an access to a shared region is noted, and nowhere
else, so without such a region no instruction changes it. -/

open Sys2Proof Sys2Proof.Machine

namespace Sys2Proof.Machine

variable {s t u : State} {i : Instr}

/-- No region of the launch is shared. -/
def State.allPrivate (s : State) : Prop := ∀ r ∈ s.params.regions, r.shared = false

theorem State.record_allPrivate {r : Region} (hpriv : s.allPrivate) (hr : r ∈ s.params.regions) (ev : Event) :
    s.record r ev = s :=
  State.record_private s r ev (hpriv r hr)

theorem Wrote.events {d : Reg} (h : Wrote d s t) : t.events = s.events := by
  obtain ⟨v, n, rfl⟩ := h
  rfl

theorem Committed.events_of_allPrivate (hpriv : s.allPrivate) (h : Committed s u) : u.events = s.events := by
  obtain ⟨r, hr, a, n, old, new, -, rfl⟩ := h
  cases new with
  | none => rw [State.commit, State.record_allPrivate hpriv hr]
  | some v => rw [State.commit, State.record_private _ _ _ (hpriv r hr), State.put_events]

/-- Without a shared region an instruction records nothing. -/
theorem Did.events_of_allPrivate (hpriv : s.allPrivate) (h : Did i s t) : t.events = s.events := by
  cases h with
  | stopped h => obtain ⟨f, rfl⟩ := h; rfl
  | wrote d _ h => exact h.events
  | moved m h => rw [h, State.advance_events]
  | loaded d r ev hr _ h => rw [h.events, State.record_allPrivate hpriv hr]
  | stored h =>
    obtain ⟨r, hr, a, n, v, ev, -, rfl⟩ := h
    rw [State.record_private _ _ _ (hpriv r hr), State.advance_events, State.put_events]
  | committed u hu h => rw [h, State.advance_events, hu.events_of_allPrivate hpriv]
  | fetched d u hu _ h => rw [h.events, hu.events_of_allPrivate hpriv]
  | answered h => obtain ⟨kind, id, regs, writes, -, rfl⟩ := h; rfl
  | delivered h => obtain ⟨mode, n, imm, regs, writes, -, rfl⟩ := h; rfl
  | called imm _ _ h => rw [h]; rfl
  | returned f rest _ _ h => rw [h]
  | ended x _ _ _ h => rw [h]

end Sys2Proof.Machine

/-- Settles O24: fetch records nothing, and an executed instruction only accesses to shared regions. -/
theorem privateRunsRecordNothing : Obligations.PrivateRunsRecordNothing := by
  intro s t hpriv h
  obtain ⟨-, ⟨f, -, rfl⟩ | ⟨i, -, hexec⟩⟩ := step_cases h
  · rfl
  · exact (exec_cases hexec).events_of_allPrivate hpriv
end

section
/-! PROOFS. Values and the bytes that hold them (R62, R63, R64): byte `k` of a value, where it lies on either host, and
that reading the bytes back gives the value's low bytes. -/

open Sys2Proof Sys2Proof.Machine

namespace Sys2Proof.Machine

/-! ## Bytes of a value -/

/-- Byte `k` of the low `n` bytes. -/
theorem leBytes_getElem? {n k : Nat} (v : Word64) (hk : k < n) :
    (leBytes n v)[k]? = some (BitVec.ofNat 8 (v.toNat / 2 ^ (8 * k))) := by
  induction n generalizing v k with
  | zero => omega
  | succ n ih =>
    cases k with
    | zero => simp [leBytes]
    | succ k =>
      have hdiv : (v >>> 8).toNat / 2 ^ (8 * k) = v.toNat / 2 ^ (8 * (k + 1)) := by
        rw [BitVec.toNat_ushiftRight, Nat.shiftRight_eq_div_pow, Nat.div_div_eq_div_mul, ← pow_add, Nat.mul_add,
          Nat.mul_one, Nat.add_comm]
      rw [leBytes, List.getElem?_cons_succ, ih _ (by omega), hdiv]

theorem bytePlace_lt {e : Endian} {n k : Nat} (hk : k < n) : bytePlace e n k < n := by
  cases e with
  | little => exact hk
  | big => rw [bytePlace]; omega

/-- Where a byte lies and which byte lies there are found in the same way. -/
theorem bytePlace_bytePlace {e : Endian} {n k : Nat} (hk : k < n) : bytePlace e n (bytePlace e n k) = k := by
  cases e with
  | little => rfl
  | big => rw [bytePlace, bytePlace]; omega

theorem hostBytes_getElem?_bytePlace {n k : Nat} (e : Endian) (v : Word64) (hk : k < n) :
    (hostBytes e n v)[bytePlace e n k]? = some (BitVec.ofNat 8 (v.toNat / 2 ^ (8 * k))) := by
  cases e with
  | little => exact leBytes_getElem? v hk
  | big =>
    have hplace : bytePlace .big n k < n := bytePlace_lt hk
    rw [hostBytes, List.getElem?_reverse (by rwa [leBytes_length]), leBytes_length,
      ← leBytes_getElem? v hk]
    congr 1
    exact bytePlace_bytePlace (e := .big) hk

/-- A byte of the low `n` bytes is that byte of the whole value. -/
theorem byte_mod {n k : Nat} (v : Nat) (hk : k < n) :
    BitVec.ofNat 8 (v % 2 ^ (8 * n) / 2 ^ (8 * k)) = BitVec.ofNat 8 (v / 2 ^ (8 * k)) := by
  have hn : 8 * n = 8 * k + (8 + 8 * (n - k - 1)) := by omega
  have hdvd : 2 ^ 8 ∣ 2 ^ (8 + 8 * (n - k - 1)) := pow_dvd_pow 2 (Nat.le_add_right ..)
  apply BitVec.eq_of_toNat_eq
  rw [BitVec.toNat_ofNat, BitVec.toNat_ofNat, hn, pow_add, Nat.mod_mul_right_div_self, Nat.mod_mod_of_dvd _ hdvd]

/-! ## The value of the bytes -/

/-- What an `n`-byte access transfers (R63). -/
theorem lowBytes_toNat (n : Nat) (v : Word64) : (lowBytes n v).toNat = v.toNat % 2 ^ (8 * n) := by
  induction n generalizing v with
  | zero => simp [lowBytes, leBytes, ofLeBytes, Nat.mod_one]
  | succ n ih =>
    have hsplit : lowBytes (n + 1) v = (v.setWidth 8).setWidth 64 ||| lowBytes n (v >>> 8) <<< 8 := rfl
    have hlow : ((v.setWidth 8).setWidth 64).toNat = v.toNat % 2 ^ 8 := by
      rw [BitVec.toNat_setWidth, BitVec.toNat_setWidth]
      omega
    have hhigh : (lowBytes n (v >>> 8)).toNat = v.toNat / 2 ^ 8 % 2 ^ (8 * n) := by
      rw [ih, BitVec.toNat_ushiftRight, Nat.shiftRight_eq_div_pow]
    have hfits : (v.toNat / 2 ^ 8 % 2 ^ (8 * n)) <<< 8 < 2 ^ 64 := by
      have := Nat.mod_le (v.toNat / 2 ^ 8) (2 ^ (8 * n))
      rw [Nat.shiftLeft_eq]
      omega
    rw [hsplit, BitVec.toNat_or, BitVec.toNat_shiftLeft, hlow, hhigh, Nat.mod_eq_of_lt hfits, Nat.or_comm,
      ← Nat.shiftLeft_add_eq_or_of_lt (Nat.mod_lt _ (by decide)), Nat.shiftLeft_eq, Nat.mul_add, Nat.mul_one,
      Nat.add_comm (8 * n), pow_add, Nat.mod_mul]
    ring

theorem lowBytes_eq_ofNat (n : Nat) (v : Word64) : lowBytes n v = BitVec.ofNat 64 (v.toNat % 2 ^ (8 * n)) := by
  rw [← lowBytes_toNat, BitVec.ofNat_toNat, BitVec.setWidth_eq]

theorem ofHostBytes_hostBytes (e : Endian) (n : Nat) (v : Word64) : ofHostBytes e (hostBytes e n v) = lowBytes n v := by
  cases e with
  | little => rfl
  | big => rw [hostBytes, ofHostBytes, List.reverse_reverse, lowBytes]

/-- An `n`-byte value is a word, and its bytes give it back. -/
theorem ofHostBytes_hostBytes_ofNat (e : Endian) {n v : Nat} (hn : n ≤ 8) (hv : v < 2 ^ (8 * n)) :
    ofHostBytes e (hostBytes e n (BitVec.ofNat 64 v)) = BitVec.ofNat 64 v := by
  have hword : v < 2 ^ 64 := hv.trans_le (Nat.pow_le_pow_right (by decide) (by omega))
  rw [ofHostBytes_hostBytes, lowBytes_eq_ofNat, BitVec.toNat_ofNat, Nat.mod_eq_of_lt hword, Nat.mod_eq_of_lt hv]

end Sys2Proof.Machine
end

section
/-! PROOFS. Loads and stores (R61 to R63, R68, R400 to R416): which accesses are admitted, what `n` bytes of a region
read as, what a store leaves to be read, and from these what each load and each store does. -/

open Sys2Proof Sys2Proof.Machine

namespace Sys2Proof.Machine

variable {s t : State} {r : Region} {addr v : Word64} {n : Nat} {d src : Reg} {off : Off} {i : Instr}

/-! ## Addresses and admission -/

/-- The effective address as a number (R61). -/
theorem effAddr_toNat (base : Word64) (off : Off) :
    (effAddr base off).toNat = ((base.toNat + off.toInt) % 2 ^ 64).toNat := by
  rw [effAddr, BitVec.toNat_add, BitVec.signExtend, BitVec.toNat_ofInt]
  omega

theorem eq_effAddr {base : Word64} (h : addr.toNat = ((base.toNat + off.toInt) % 2 ^ 64).toNat) :
    addr = effAddr base off :=
  BitVec.eq_of_toNat_eq (h.trans (effAddr_toNat base off).symm)

/-- Bytes lie in a region when none comes before its base, past its end, or at 2^64 or above (R61, R68). -/
theorem regionHolds_iff {a : Nat} :
    regionHolds r a n = true ↔ r.base ≤ a ∧ a + n ≤ r.base + r.length ∧ a + n ≤ 2 ^ 64 := by
  simp [regionHolds, and_assoc]

/-! ## Reading a region -/

theorem State.byteAt_private (hr : r.shared = false) (a : Nat) : s.byteAt r a = s.mem.get a := by
  simp [State.byteAt, hr]

/-- A read of an unshared region sees what memory holds (R62). -/
theorem State.sees_of_holds {a v : Nat} (hr : r.shared = false) (h : s.holds a n v) : s.sees r a n v := by
  obtain ⟨hv, hbytes⟩ := h
  exact ⟨hv, fun k hk => by rw [State.byteAt_private hr, hbytes k hk]⟩

theorem State.load_eq_some {a : Nat} {bytes : List Byte}
    (h : ∀ k < bytes.length, s.byteAt r (a + k) = bytes[k]?) : s.load r a bytes.length = some bytes := by
  induction bytes generalizing a with
  | nil => rfl
  | cons b rest ih =>
    have hfirst : s.byteAt r a = some b := h 0 (Nat.zero_lt_succ _)
    have hrest : s.load r (a + 1) rest.length = some rest := ih fun k hk => by
      rw [Nat.add_assoc, Nat.add_comm 1]
      exact h (k + 1) (Nat.succ_lt_succ hk)
    rw [List.length_cons, State.load, hfirst, hrest]

/-- One unwritten byte makes the whole access unwritten (R62, R507). -/
theorem State.load_eq_none {a k : Nat} (hk : k < n) (h : s.byteAt r (a + k) = none) : s.load r a n = none := by
  induction n generalizing a k with
  | zero => omega
  | succ n ih =>
    cases k with
    | zero => rw [State.load, show s.byteAt r a = none from h]
    | succ k =>
      have hrest : s.load r (a + 1) n = none := ih (Nat.lt_of_succ_lt_succ hk) (by rwa [Nat.add_right_comm])
      rw [State.load, hrest]
      cases s.byteAt r a <;> rfl

/-- The bytes of a value that a region is seen to hold (R62, R64). -/
theorem State.load_of_sees {a v : Nat} (hn : n ≤ 8) (h : s.sees r a n v) :
    s.load r a n = some (hostBytes s.params.endian n (BitVec.ofNat 64 v)) := by
  obtain ⟨hv, hbytes⟩ := h
  have hword : v < 2 ^ 64 := hv.trans_le (Nat.pow_le_pow_right (by decide) (by omega))
  have hload := State.load_eq_some (s := s) (r := r) (a := a)
    (bytes := hostBytes s.params.endian n (BitVec.ofNat 64 v)) fun k hk => by
      rw [hostBytes_length] at hk
      have hseen := hbytes _ (bytePlace_lt (e := s.params.endian) hk)
      have hbyte := hostBytes_getElem?_bytePlace s.params.endian (BitVec.ofNat 64 v)
        (bytePlace_lt (e := s.params.endian) hk)
      rw [bytePlace_bytePlace hk] at hseen hbyte
      rw [hseen, hbyte, BitVec.toNat_ofNat, Nat.mod_eq_of_lt hword]
  rwa [hostBytes_length] at hload

/-- Recording changes the event history only (R72). -/
theorem State.record_eq (s : State) (r : Region) (ev : Event) :
    s.record r ev = { s with events := s.noted r ev } := by
  unfold State.record State.noted
  split <;> rfl

/-- An admitted, aligned read of a seen value (R62). -/
theorem memRead_of_sees {v : Nat} {k : Word64 → State → Result} (hn : n ≤ 8)
    (hadm : s.regionFor (·.readable) addr n = some r) (hal : s.params.strictAlign = true → addr.toNat % n = 0)
    (hv : s.sees r addr.toNat n v) :
    memRead addr n s k =
      k (BitVec.ofNat 64 v) { s with events := s.noted r (.read addr n (BitVec.ofNat 64 v)) } := by
  rw [memRead_ok hadm hal (State.load_of_sees hn hv), ofHostBytes_hostBytes_ofNat _ hn hv.1, State.record_eq]

theorem memRead_unadmitted {k : Word64 → State → Result} (h : s.regionFor (·.readable) addr n = none) :
    memRead addr n s k = raise (.memFault addr n .read) s := by
  simp only [memRead, h]

theorem memRead_misaligned {k : Word64 → State → Result} (hadm : s.regionFor (·.readable) addr n = some r)
    (hstrict : s.params.strictAlign = true) (hal : addr.toNat % n ≠ 0) :
    memRead addr n s k = raise (.misaligned addr n) s := by
  simp only [memRead, hadm, if_pos (And.intro hstrict hal)]

theorem memRead_unwritten {k : Word64 → State → Result} (hadm : s.regionFor (·.readable) addr n = some r)
    (hal : s.params.strictAlign = true → addr.toNat % n = 0) (hl : s.load r addr.toNat n = none) :
    memRead addr n s k = raise (.uninitMemory addr n) s := by
  have hna : ¬ (s.params.strictAlign = true ∧ addr.toNat % n ≠ 0) := fun h => h.2 (hal h.1)
  simp only [memRead, hadm, if_neg hna, hl]

/-! ## Writing a region -/

/-- Stored bytes are held where they were stored (R63). -/
theorem State.put_holds (s : State) (addr : Word64) (n : Nat) (v : Word64) :
    (s.put addr n v).holds addr.toNat n (v.toNat % 2 ^ (8 * n)) := by
  refine ⟨Nat.mod_lt _ (by positivity), fun k hk => ?_⟩
  have hplace : bytePlace s.params.endian n k < (hostBytes s.params.endian n v).length := by
    rw [hostBytes_length]
    exact bytePlace_lt hk
  rw [State.put_mem, State.put_params, Memory.get_store_inside _ _ _ _ hplace, ← List.getElem?_eq_getElem hplace,
    hostBytes_getElem?_bytePlace _ _ hk, byte_mod _ hk]

/-- A store changes no byte outside its own (R63, R70). -/
theorem State.put_sameOutside (s : State) (addr : Word64) (n : Nat) (v : Word64) :
    sameOutside s (s.put addr n v) addr.toNat n := fun b hb => by
  rw [State.put_mem, Memory.get_store_outside _ _ _ _ (by rwa [hostBytes_length])]

theorem memWrite_unadmitted {k : State → Result} (h : s.regionFor (·.writable) addr n = none) :
    memWrite addr n v s k = raise (.memFault addr n .write) s := by
  simp only [memWrite, h]

theorem memWrite_misaligned {k : State → Result} (hadm : s.regionFor (·.writable) addr n = some r)
    (hstrict : s.params.strictAlign = true) (hal : addr.toNat % n ≠ 0) :
    memWrite addr n v s k = raise (.misaligned addr n) s := by
  simp only [memWrite, hadm, if_pos (And.intro hstrict hal)]

/-- A write that does not fault has passed its checks (R63). -/
theorem memWrite_checks {k : State → Result} (h : memWrite addr n v s k = .next t) (hrun : t.status = .running) :
    ∃ r, s.regionFor (·.writable) addr n = some r ∧ (s.params.strictAlign = true → addr.toNat % n = 0) := by
  cases hadm : s.regionFor (·.writable) addr n with
  | none =>
    rw [memWrite_unadmitted hadm] at h
    rw [raise_cases h] at hrun
    cases hrun
  | some r =>
    refine ⟨r, rfl, fun hstrict => by_contra fun hal => ?_⟩
    rw [memWrite_misaligned hadm hstrict hal] at h
    rw [raise_cases h] at hrun
    cases hrun

/-- An instruction that is one write, where the write's checks pass (R63). -/
theorem storesOnly_of_memWrite (hexec : exec i s = memWrite addr n v s fun s' => .next (s'.advance 1))
    (hadm : s.regionFor (·.writable) addr n = some r) (hal : s.params.strictAlign = true → addr.toNat % n = 0) :
    storesOnly i s r addr n (v.toNat % 2 ^ (8 * n)) := by
  rw [memWrite_ok hadm hal, lowBytes_eq_ofNat, State.record_eq] at hexec
  exact ⟨_, hexec, State.put_holds s addr n v, State.put_sameOutside s addr n v, rfl, rfl, rfl, rfl, rfl, rfl, rfl, rfl,
    rfl, rfl⟩

/-! ## The loads -/

section
variable {base : Word64} {ext : Word64 → Word64}

/-- A load whose checks pass writes the extended value (R400). -/
theorem load_completes {v : Nat} (hn : n ≤ 8) (hbase : s.regs[src] = .written base)
    (hadm : s.regionFor (·.readable) (effAddr base off) n = some r)
    (hal : s.params.strictAlign = true → (effAddr base off).toNat % n = 0)
    (hv : s.sees r (effAddr base off).toNat n v) :
    load n ext d src off s = .next { s with
      regs := s.regs.set d (.written (ext (BitVec.ofNat 64 v)))
      pc := s.pc + 1
      events := s.noted r (.read (effAddr base off) n (BitVec.ofNat 64 v)) } := by
  rw [load, readReg_written hbase, memRead_of_sees hn hadm hal hv]
  rfl

/-- The faults of a load, in the order of its checks (R62, R511). -/
theorem load_faults (hload : exec i s = load n ext d src off s) (hbase : s.regs[src] = .written base)
    (haddr : addr.toNat = ((base.toNat + off.toInt) % 2 ^ 64).toNat) :
    (s.regionFor (·.readable) addr n = none → raises i s (.memFault addr n .read)) ∧
    ∀ r : Region, s.regionFor (·.readable) addr n = some r →
      (s.params.strictAlign = true → addr.toNat % n ≠ 0 → raises i s (.misaligned addr n)) ∧
      ((s.params.strictAlign = true → addr.toNat % n = 0) → r.shared = false →
        (∃ k < n, s.mem.get (addr.toNat + k) = none) → raises i s (.uninitMemory addr n)) := by
  rw [load, readReg_written hbase, ← eq_effAddr haddr] at hload
  simp only [raises, hload]
  refine ⟨memRead_unadmitted, fun r hadm => ⟨memRead_misaligned hadm, ?_⟩⟩
  rintro hal hpriv ⟨k, hk, hbyte⟩
  exact memRead_unwritten hadm hal (State.load_eq_none hk (by rwa [State.byteAt_private hpriv]))

end

/-- Sign-extending the low `w` bits of a word (R400). -/
theorem signExtend_setWidth_ofNat {w : Nat} (hw : w ≤ 64) (v : Nat) :
    ((BitVec.ofNat 64 v).setWidth w).signExtend 64 = BitVec.ofInt 64 (BitVec.ofNat w v).toInt := by
  rw [BitVec.setWidth_ofNat_of_le hw, BitVec.signExtend]

/-! ## The stores -/

/-- The faults of an instruction that is one write, in the order of its checks (R63). -/
theorem write_faults {k : State → Result} (hexec : exec i s = memWrite addr n v s k) :
    (s.regionFor (·.writable) addr n = none → raises i s (.memFault addr n .write)) ∧
    ∀ r : Region, s.regionFor (·.writable) addr n = some r → s.params.strictAlign = true → addr.toNat % n ≠ 0 →
      raises i s (.misaligned addr n) := by
  simp only [raises, hexec]
  exact ⟨memWrite_unadmitted, fun r hadm => memWrite_misaligned hadm⟩

section
variable {base x : Word64} {imm : Word32}

theorem storeImmediate_eq_memWrite (hbase : s.regs[d] = .written base)
    (haddr : addr.toNat = ((base.toNat + off.toInt) % 2 ^ 64).toNat) :
    storeImmediate n d off imm s = memWrite addr n (storedImm imm) s fun s' => .next (s'.advance 1) := by
  rw [storeImmediate, readReg_written hbase, ← eq_effAddr haddr]

theorem storeRegister_eq_memWrite (hbase : s.regs[d] = .written base) (hx : s.regs[src] = .written x)
    (haddr : addr.toNat = ((base.toNat + off.toInt) % 2 ^ 64).toNat) :
    storeRegister n d src off s = memWrite addr n x s fun s' => .next (s'.advance 1) := by
  rw [storeRegister, readReg_written hbase, readReg_written hx, ← eq_effAddr haddr]

/-- A store of an immediate whose checks pass, with the stored value `w` given as its low bytes (R401). -/
theorem storesOnly_of_storeImmediate {w : Nat} (hexec : exec i s = storeImmediate n d off imm s)
    (hbase : s.regs[d] = .written base) (haddr : addr.toNat = ((base.toNat + off.toInt) % 2 ^ 64).toNat)
    (hw : (storedImm imm).toNat % 2 ^ (8 * n) = w) (hadm : s.regionFor (·.writable) addr n = some r)
    (hal : s.params.strictAlign = true → addr.toNat % n = 0) : storesOnly i s r addr n w :=
  hw ▸ storesOnly_of_memWrite (hexec.trans (storeImmediate_eq_memWrite hbase haddr)) hadm hal

end

/-- The sign-extended immediate as a number (R401). -/
theorem storedImm_toNat (imm : Word32) : (storedImm imm).toNat = (imm.toInt % 2 ^ 64).toNat := by
  rw [storedImm, sext32, BitVec.signExtend, BitVec.toNat_ofInt]
  rfl

/-- Up to four bytes of the sign-extended immediate are those of the immediate (R401). -/
theorem storedImm_toNat_mod {w : Nat} (imm : Word32) (hw : w ≤ 32) :
    (storedImm imm).toNat % 2 ^ w = imm.toNat % 2 ^ w := by
  have hlow : (storedImm imm).toNat % 2 ^ 32 = imm.toNat := by
    rw [storedImm_toNat, BitVec.toInt_eq_toNat_cond]
    split <;> omega
  rw [← hlow, Nat.mod_mod_of_dvd _ (pow_dvd_pow 2 hw)]

end Sys2Proof.Machine

/-- Settles O44: the four widths are `load_completes` without extension. -/
theorem loadsZeroExtend : Obligations.LoadsZeroExtend := by
  intro row hrow
  simp only [List.mem_cons, List.not_mem_nil, or_false] at hrow
  obtain rfl | rfl | rfl | rfl := hrow <;>
  · intro s d src off base addr r v hbase haddr hadm hal hv
    rw [eq_effAddr haddr] at hadm hal hv ⊢
    exact load_completes (by decide) hbase hadm hal hv

/-- Settles O45: the three widths are `load_completes` with that width's sign extension. -/
theorem loadsSignExtend : Obligations.LoadsSignExtend := by
  intro row hrow
  simp only [List.mem_cons, List.not_mem_nil, or_false] at hrow
  obtain rfl | rfl | rfl := hrow <;>
  · intro s d src off base addr r v hbase haddr hadm hal hv
    rw [eq_effAddr haddr] at hadm hal hv ⊢
    rw [← signExtend_setWidth_ofNat (by decide)]
    exact load_completes (by decide) hbase hadm hal hv

/-- Settles O46: all seven loads are the one operation of `load_faults`. -/
theorem loadFaults : Obligations.LoadFaults := by
  intro row hrow
  simp only [List.mem_cons, List.not_mem_nil, or_false] at hrow
  obtain rfl | rfl | rfl | rfl | rfl | rfl | rfl := hrow <;>
  · intro s d src off base addr hbase haddr
    exact load_faults rfl hbase haddr

/-- Settles O48: the stored value is sign-extended, of which the narrower widths keep bytes of the immediate itself. -/
theorem immediateStores : Obligations.ImmediateStores := by
  intro s d off imm base addr r hbase haddr row hrow
  simp only [List.mem_cons, List.not_mem_nil, or_false] at hrow
  obtain rfl | rfl | rfl | rfl := hrow
  · exact storesOnly_of_storeImmediate rfl hbase haddr (storedImm_toNat_mod imm (by decide))
  · exact storesOnly_of_storeImmediate rfl hbase haddr (storedImm_toNat_mod imm (by decide))
  · exact storesOnly_of_storeImmediate rfl hbase haddr
      ((storedImm_toNat_mod imm (by decide)).trans (Nat.mod_eq_of_lt imm.isLt))
  · exact storesOnly_of_storeImmediate rfl hbase haddr
      ((Nat.mod_eq_of_lt (storedImm imm).isLt).trans (storedImm_toNat imm))

/-- Settles O49: the four widths are `storesOnly_of_memWrite`. -/
theorem registerStores : Obligations.RegisterStores := by
  intro row hrow
  simp only [List.mem_cons, List.not_mem_nil, or_false] at hrow
  obtain rfl | rfl | rfl | rfl := hrow <;>
  · intro s d src off base addr x r hbase hx haddr hadm hal
    exact storesOnly_of_memWrite (storeRegister_eq_memWrite hbase hx haddr) hadm hal

/-- Settles O51: the store leaves memory holding the value, which a read of an unshared region sees. -/
theorem storeThenLoad : Obligations.StoreThenLoad := by
  intro s t d src q off base x r hbase hx _ hadm hpriv hexec hrun
  have hwrite := storeRegister_eq_memWrite (n := 8) hbase hx (effAddr_toNat base off)
  obtain ⟨g, hwritable, hal⟩ := memWrite_checks (hwrite.symm.trans hexec) hrun
  obtain ⟨u, hu, hholds, -, hregs, -, -, -, -, -, hparams, -⟩ :=
    storesOnly_of_memWrite (i := .stxdw d src off) hwrite hwritable hal
  obtain rfl : t = u := Host.Outcome.next.inj (hexec.symm.trans hu)
  have hx64 : BitVec.ofNat 64 (x.toNat % 2 ^ (8 * 8)) = x := by
    rw [Nat.mod_eq_of_lt x.isLt, BitVec.ofNat_toNat, BitVec.setWidth_eq]
  have hload : exec (.ldxdw q d off) t = _ := load_completes (s := t) (r := r) (ext := fun v => v) (by decide)
    (by rwa [hregs]) (by rwa [State.regionFor, hparams]) (by rwa [hparams]) (State.sees_of_holds hpriv hholds)
  rw [hload, hx64, State.noted, hpriv]
  rfl

/-- Settles O47: the search for a region finds one exactly where one holds the bytes. -/
theorem admission : Obligations.Admission := by
  intro s ok addr n
  simp only [State.regionFor, List.find?_isSome, Bool.and_eq_true, regionHolds_iff]

/-- Settles O50: all eight stores are the one operation of `write_faults`. -/
theorem storeFaults : Obligations.StoreFaults := by
  intro s d src off imm base addr x hbase hx haddr row hrow
  simp only [List.mem_cons, List.not_mem_nil, or_false] at hrow
  obtain rfl | rfl | rfl | rfl | rfl | rfl | rfl | rfl := hrow
  iterate 4 exact write_faults (storeImmediate_eq_memWrite hbase haddr)
  iterate 4 exact write_faults (storeRegister_eq_memWrite hbase hx haddr)
end

section
/-! PROOFS. Encoding (R101, R104, R113, R114): a slot and its fields, the strictness of every reader and of the decoder's
tables, the way back from an instruction's fields, and the two directions of the round trip. Settles the statements on
encoding, on what a step executes, on fetches outside the program and on second slots. -/

open Sys2Proof Sys2Proof.Machine

namespace Sys2Proof

/-! ## Slots and their fields -/

theorem append_inj {m n : Nat} {a c : BitVec m} {b d : BitVec n} : a ++ b = c ++ d ↔ a = c ∧ b = d := by
  constructor
  · intro h
    have hleft := congrArg (BitVec.extractLsb' n m) h
    have hright := congrArg (BitVec.extractLsb' 0 n) h
    simp only [BitVec.extractLsb'_append_eq_left] at hleft
    simp only [BitVec.extractLsb'_append_eq_right] at hright
    exact ⟨hleft, hright⟩
  · rintro ⟨rfl, rfl⟩
    rfl

theorem join_nibbles (b : Byte) : b.extractLsb' 4 4 ++ b.extractLsb' 0 4 = b :=
  (BitVec.extractLsb'_append_extractLsb'_eq_extractLsb' rfl).trans BitVec.extractLsb'_eq_self

theorem eq_of_nibbles {b c : Byte} (hlow : b.extractLsb' 0 4 = c.extractLsb' 0 4)
    (hhigh : b.extractLsb' 4 4 = c.extractLsb' 4 4) : b = c := by
  rw [← join_nibbles b, hlow, hhigh, join_nibbles]

/-- No bit of a slot is left out of its fields (R101). -/
theorem Slot.fields_injective (e : Endian) : Function.Injective (Slot.fields e) := by
  rintro ⟨a0, a1, a2, a3, a4, a5, a6, a7⟩ ⟨b0, b1, b2, b3, b4, b5, b6, b7⟩ h
  cases e <;>
  · simp only [Slot.fields, Fields.mk.injEq] at h
    obtain ⟨rfl, hdst, hsrc, hoff, himm⟩ := h
    obtain ⟨rfl, rfl⟩ := append_inj.mp hoff
    obtain ⟨himm3, rfl⟩ := append_inj.mp himm
    obtain ⟨himm2, rfl⟩ := append_inj.mp himm3
    obtain ⟨rfl, rfl⟩ := append_inj.mp himm2
    obtain rfl : a1 = b1 := by apply eq_of_nibbles <;> assumption
    rfl

@[simp] theorem Slot.slot_fields (e : Endian) (s : Slot) : (s.fields e).slot e = s :=
  Slot.fields_injective e (Fields.fields_slot e _)

theorem Fields.opcode_of_code {f : Fields} {code : BitVec 4} {source : BitVec 1} {cls : BitVec 3}
    (hcode : f.code = code) (hsource : f.source = source) (hcls : f.cls = cls) :
    f.opcode = code ++ source ++ cls := by
  have hparts : ∀ b : Byte, b = b.extractLsb' 4 4 ++ b.extractLsb' 3 1 ++ b.extractLsb' 0 3 := by decide
  subst hcode hsource hcls
  exact hparts f.opcode

theorem Fields.opcode_of_mode {f : Fields} {mode : BitVec 3} {size : BitVec 2} {cls : BitVec 3}
    (hmode : f.mode = mode) (hsize : f.size = size) (hcls : f.cls = cls) : f.opcode = mode ++ size ++ cls := by
  have hparts : ∀ b : Byte, b = b.extractLsb' 5 3 ++ b.extractLsb' 3 2 ++ b.extractLsb' 0 3 := by decide
  subst hmode hsize hcls
  exact hparts f.opcode

/-! ## From fields to the instruction: no field is ignored -/

theorem eq_regBits_of_asReg {b : BitVec 4} {r : Reg} (h : asReg b = .ok r) : b = regBits r := by
  revert b r
  decide

/-- The answer to the fields `f` is strict: an instruction only where `f` are the very fields that encode it (R113). -/
def Strict (f : Fields) (answer : Except Reject Instr) : Prop := ∀ i, answer = .ok i → encodeFields i = f

section
variable {f : Fields} {n : Nat}

/-! One rule per operation of the readers. -/

theorem strict_error {r : Reject} : Strict f (.error r) := fun _ h => by cases h

theorem strict_pure {i : Instr} : Strict f (pure i) ↔ encodeFields i = f :=
  ⟨fun h => h i rfl, fun h _ hi => Except.ok.inj hi ▸ h⟩

theorem strict_unused {v : BitVec n} {k : Unit → Except Reject Instr} :
    Strict f (unused v >>= k) ↔ (v = 0 → Strict f (k ())) := by
  unfold unused
  split
  · next hv => exact ⟨fun h _ => h, fun h => h hv⟩
  · next hv => exact iff_of_true strict_error fun h => absurd h hv

theorem strict_asReg {b : BitVec 4} {k : Reg → Except Reject Instr} :
    Strict f (asReg b >>= k) ↔ ∀ d, b = regBits d → Strict f (k d) := by
  cases hb : asReg b with
  | error r => exact iff_of_true strict_error fun d hd => by simp [hd] at hb
  | ok r =>
    refine ⟨fun h d hd => ?_, fun h => h r (eq_regBits_of_asReg hb)⟩
    obtain rfl : d = r := by simpa [hd] using hb
    exact h

theorem strict_selectRow_nil {α : Type} {key : BitVec n} {k : α → Except Reject Instr} :
    Strict f (selectRow key [] >>= k) ↔ True :=
  iff_true_intro strict_error

theorem strict_selectRow_cons {α : Type} {key l : BitVec n} {a : α} {rows : List (BitVec n × α)}
    {k : α → Except Reject Instr} : Strict f (selectRow key ((l, a) :: rows) >>= k) ↔
      (key = l → Strict f (k a)) ∧ (key ≠ l → Strict f (selectRow key rows >>= k)) := by
  rw [selectRow]
  split
  · next h => exact ⟨fun hs => ⟨fun _ => hs, fun hne => absurd h hne⟩, fun hs => hs.1 h⟩
  · next h => exact ⟨fun hs => ⟨fun heq => absurd heq h, fun _ => hs⟩, fun hs => hs.2 h⟩

/-! One lemma per class. In each row of its table the opcode is known, and what the row's reader checked says of every
other field that it is an operand of the instruction or the value that its row fixes. -/

theorem decodeLd_strict (hcls : f.cls = 0#3) : Strict f (decodeLd f) := by
  unfold decodeLd
  split
  case h_8 => exact strict_error
  all_goals
    next hmode hsize =>
    obtain ⟨op, dst, src, off, imm⟩ := f
    obtain rfl : op = _ := Fields.opcode_of_mode hmode hsize hcls
    simp only [readImm64, readPacketAbs, readPacketInd, strict_selectRow_cons, strict_selectRow_nil, strict_unused,
      strict_asReg, strict_pure, imp_and, implies_true, and_true]
    and_intros <;> (intros; subst_vars; rfl)

theorem decodeLdx_strict (hcls : f.cls = 1#3) : Strict f (decodeLdx f) := by
  unfold decodeLdx
  split
  case h_8 => exact strict_error
  all_goals
    next hmode hsize =>
    obtain ⟨op, dst, src, off, imm⟩ := f
    obtain rfl : op = _ := Fields.opcode_of_mode hmode hsize hcls
    simp only [readAccess, strict_unused, strict_asReg, strict_pure]
    intros; subst_vars; rfl

theorem decodeSt_strict (hcls : f.cls = 2#3) : Strict f (decodeSt f) := by
  unfold decodeSt
  split
  case h_5 => exact strict_error
  all_goals
    next hmode hsize =>
    obtain ⟨op, dst, src, off, imm⟩ := f
    obtain rfl : op = _ := Fields.opcode_of_mode hmode hsize hcls
    simp only [readStoreImm, strict_unused, strict_asReg, strict_pure]
    intros; subst_vars; rfl

theorem decodeStx_strict (hcls : f.cls = 3#3) : Strict f (decodeStx f) := by
  unfold decodeStx
  split
  case h_7 => exact strict_error
  all_goals
    next hmode hsize =>
    obtain ⟨op, dst, src, off, imm⟩ := f
    obtain rfl : op = _ := Fields.opcode_of_mode hmode hsize hcls
    simp only [readAccess, readAtomic, strict_selectRow_cons, strict_selectRow_nil, strict_unused, strict_asReg,
      strict_pure, imp_and, implies_true, and_true]
    and_intros <;> (intros; subst_vars; rfl)

theorem decodeAlu32_strict (hcls : f.cls = 4#3) : Strict f (decodeAlu32 f) := by
  unfold decodeAlu32
  split
  case h_28 => exact strict_error
  all_goals
    next hcode hsource =>
    obtain ⟨op, dst, src, off, imm⟩ := f
    obtain rfl : op = _ := Fields.opcode_of_code hcode hsource hcls
    simp only [readAluK, readAluX, readUnary, readSwap, strict_selectRow_cons, strict_selectRow_nil, strict_unused,
      strict_asReg, strict_pure, imp_and, implies_true, and_true]
    and_intros <;> (intros; subst_vars; rfl)

theorem decodeJmp_strict (hcls : f.cls = 5#3) : Strict f (decodeJmp f) := by
  unfold decodeJmp
  split
  case h_26 => exact strict_error
  all_goals
    next hcode hsource =>
    obtain ⟨op, dst, src, off, imm⟩ := f
    obtain rfl : op = _ := Fields.opcode_of_code hcode hsource hcls
    simp only [readJumpOff, readJumpK, readJumpX, readCall, readBare, strict_selectRow_cons, strict_selectRow_nil,
      strict_unused, strict_asReg, strict_pure, imp_and, implies_true, and_true]
    and_intros <;> (intros; subst_vars; rfl)

theorem decodeJmp32_strict (hcls : f.cls = 6#3) : Strict f (decodeJmp32 f) := by
  unfold decodeJmp32
  split
  case h_24 => exact strict_error
  all_goals
    next hcode hsource =>
    obtain ⟨op, dst, src, off, imm⟩ := f
    obtain rfl : op = _ := Fields.opcode_of_code hcode hsource hcls
    simp only [readJumpImm, readJumpK, readJumpX, strict_unused, strict_asReg, strict_pure]
    intros; subst_vars; rfl

theorem decodeAlu64_strict (hcls : f.cls = 7#3) : Strict f (decodeAlu64 f) := by
  unfold decodeAlu64
  split
  case h_27 => exact strict_error
  all_goals
    next hcode hsource =>
    obtain ⟨op, dst, src, off, imm⟩ := f
    obtain rfl : op = _ := Fields.opcode_of_code hcode hsource hcls
    simp only [readAluK, readAluX, readUnary, readSwap, strict_selectRow_cons, strict_selectRow_nil, strict_unused,
      strict_asReg, strict_pure, imp_and, implies_true, and_true]
    and_intros <;> (intros; subst_vars; rfl)

theorem decodeFields_strict (f : Fields) : Strict f (decodeFields f) := by
  unfold decodeFields
  split
  case h_8 =>
    simp only [imp_false] at *
    exact decodeAlu64_strict (by bv_omega)
  all_goals apply_rules only [decodeLd_strict, decodeLdx_strict, decodeSt_strict, decodeStx_strict,
    decodeAlu32_strict, decodeJmp_strict, decodeJmp32_strict, *]
end

/-! ## From the instruction to its fields and back -/

@[simp] theorem ok_bind {α β : Type} {a : α} {k : α → Except Reject β} :
    (.ok a >>= k : Except Reject β) = k a := rfl

@[simp] theorem ok_map {α β : Type} {a : α} {k : α → β} : (k <$> .ok a : Except Reject β) = .ok (k a) := rfl

/-- The fields of an instruction's first slot decode to it, its `next_imm` not yet read (R103, R114): class by class, the
opcode selects the decoder's row, and the row's reader takes back each operand. -/
theorem decodeFields_encodeFields (i : Instr) : decodeFields (encodeFields i) = .ok (i.withNext 0) := by
  cases i with
  | lddw | ldMapFd | ldMapValFd | ldVarAddr | ldCodeAddr | ldMapIdx | ldMapValIdx | ldabsw | ldabsh | ldabsb | ldindw
    | ldindh | ldindb =>
    simp [decodeFields, encodeFields, Instr.withNext, Fields.cls, Fields.mode, Fields.size, decodeLd, readImm64,
      readPacketAbs, readPacketInd, selectRow, unused]
  | ldxb | ldxh | ldxw | ldxdw | ldxsb | ldxsh | ldxsw =>
    simp [decodeFields, encodeFields, Instr.withNext, Fields.cls, Fields.mode, Fields.size, decodeLdx, readAccess,
      unused]
  | stb | sth | stw | stdw =>
    simp [decodeFields, encodeFields, Instr.withNext, Fields.cls, Fields.mode, Fields.size, decodeSt, readStoreImm,
      unused]
  | stxb | stxh | stxw | stxdw | atomicAdd32 | atomicFetchAdd32 | atomicOr32 | atomicFetchOr32 | atomicAnd32
    | atomicFetchAnd32 | atomicXor32 | atomicFetchXor32 | atomicXchg32 | atomicCmpxchg32 | atomicAdd64
    | atomicFetchAdd64 | atomicOr64 | atomicFetchOr64 | atomicAnd64 | atomicFetchAnd64 | atomicXor64
    | atomicFetchXor64 | atomicXchg64 | atomicCmpxchg64 =>
    simp [decodeFields, encodeFields, Instr.withNext, Fields.cls, Fields.mode, Fields.size, decodeStx, readAccess,
      readAtomic, selectRow, unused]
  | add32K | add32X | sub32K | sub32X | mul32K | mul32X | div32K | div32X | sdiv32K | sdiv32X | or32K | or32X
    | and32K | and32X | lsh32K | lsh32X | rsh32K | rsh32X | neg32 | mod32K | mod32X | smod32K | smod32X | xor32K
    | xor32X | mov32K | mov32X | movsx32From8 | movsx32From16 | arsh32K | arsh32X | le16 | le32 | le64 | be16 | be32
    | be64 =>
    simp [decodeFields, encodeFields, Instr.withNext, Fields.cls, Fields.code, Fields.source, decodeAlu32, readAluK,
      readAluX, readUnary, readSwap, selectRow, unused]
  | ja | jeqK | jeqX | jgtK | jgtX | jgeK | jgeX | jsetK | jsetX | jneK | jneX | jsgtK | jsgtX | jsgeK | jsgeX | jltK
    | jltX | jleK | jleX | jsltK | jsltX | jsleK | jsleX | callHelper | callLocal | callBtf | exit =>
    simp [decodeFields, encodeFields, Instr.withNext, Fields.cls, Fields.code, Fields.source, decodeJmp, readJumpOff,
      readJumpK, readJumpX, readCall, readBare, selectRow, unused]
  | ja32 | jeq32K | jeq32X | jgt32K | jgt32X | jge32K | jge32X | jset32K | jset32X | jne32K | jne32X | jsgt32K
    | jsgt32X | jsge32K | jsge32X | jlt32K | jlt32X | jle32K | jle32X | jslt32K | jslt32X | jsle32K | jsle32X =>
    simp [decodeFields, encodeFields, Instr.withNext, Fields.cls, Fields.code, Fields.source, decodeJmp32,
      readJumpImm, readJumpK, readJumpX, unused]
  | add64K | add64X | sub64K | sub64X | mul64K | mul64X | div64K | div64X | sdiv64K | sdiv64X | or64K | or64X
    | and64K | and64X | lsh64K | lsh64X | rsh64K | rsh64X | neg64 | mod64K | mod64X | smod64K | smod64X | xor64K
    | xor64X | mov64K | mov64X | movsx64From8 | movsx64From16 | movsx64From32 | arsh64K | arsh64X | bswap16 | bswap32
    | bswap64 =>
    simp [decodeFields, encodeFields, Instr.withNext, Fields.cls, Fields.code, Fields.source, decodeAlu64, readAluK,
      readAluX, readUnary, readSwap, selectRow, unused]

@[simp] theorem encodeFields_withNext (i : Instr) (next : Word32) :
    encodeFields (i.withNext next) = encodeFields i := by
  unfold Instr.withNext
  split <;> rfl

@[simp] theorem Instr.usesNext_withNext (i : Instr) (next : Word32) : (i.withNext next).usesNext = i.usesNext := by
  simp only [Instr.usesNext, Instr.isWide, encodeFields_withNext]

@[simp] theorem Instr.withNext_withNext (i : Instr) (m n : Word32) : (i.withNext m).withNext n = i.withNext n := by
  cases i <;> rfl

@[simp] theorem Instr.withNext_nextImm (i : Instr) : i.withNext i.nextImm = i := by
  cases i <;> rfl

theorem Instr.nextImm_withNext (i : Instr) (next : Word32) :
    (i.withNext next).nextImm = if i.usesNext then next else 0 := by
  cases i <;> rfl

theorem Instr.nextImm_eq_zero {i : Instr} (h : i.usesNext = false) : i.nextImm = 0 := by
  simpa [h] using i.nextImm_withNext i.nextImm

/-! ## Second slots -/

/-- The check of R104 leaves nothing of a second slot free but `imm`. -/
theorem Fields.word_low_eq_zero_iff_eq (f : Fields) : f.word.extractLsb' 0 32 = 0 ↔ f = secondFields f.imm := by
  rw [f.word_low_eq_zero_iff, secondFields, Fields.mk.injEq]
  tauto

theorem completeWide_eq_ok_iff {i j : Instr} {f : Fields} : completeWide i f = .ok j ↔
    f = secondFields f.imm ∧ (i.usesNext = false → f.imm = 0) ∧ i.withNext f.imm = j := by
  rw [← f.word_low_eq_zero_iff_eq, completeWide]
  split
  · next hlow => exact iff_of_false (fun h => by cases h) fun h => hlow h.1
  · next hlow =>
    split
    · next himm => exact iff_of_false (fun h => by cases h) fun h => himm.2 (h.2.1 (by simpa using himm.1))
    · next himm =>
      have hunused : i.usesNext = false → f.imm = 0 := by simpa using himm
      exact ⟨fun h => ⟨not_not.mp hlow, hunused, Except.ok.inj h⟩, fun h => congrArg Except.ok h.2.2⟩

theorem completeWide_secondFields (i : Instr) : completeWide (i.withNext 0) (secondFields i.nextImm) = .ok i := by
  refine completeWide_eq_ok_iff.mpr ⟨rfl, fun hunused => ?_, ?_⟩
  · exact Instr.nextImm_eq_zero (i.usesNext_withNext 0 ▸ hunused)
  · exact (i.withNext_withNext 0 _).trans i.withNext_nextImm

theorem secondFields_nextImm_of_completeWide {i j : Instr} {f : Fields} (h : completeWide i f = .ok j) :
    secondFields j.nextImm = f := by
  obtain ⟨hf, hunused, rfl⟩ := completeWide_eq_ok_iff.mp h
  rw [Instr.nextImm_withNext, hf]
  cases huses : i.usesNext with
  | false => rw [hunused huses]; rfl
  | true => rfl

/-! ## Decoding -/

/-- Everything that decoding accepts (R114). -/
theorem decode_eq_ok_iff {e : Endian} {slots rest : List Slot} {i : Instr} : decode e slots = .ok (i, rest) ↔
    ∃ first j, decodeFields (first.fields e) = .ok j ∧
      ((j.isWide = false ∧ j = i ∧ slots = first :: rest) ∨
      (j.isWide = true ∧
        ∃ second, completeWide j (second.fields e) = .ok i ∧ slots = first :: second :: rest)) := by
  constructor
  · intro h
    unfold decode at h
    split at h
    · cases h
    · next first tail =>
      split at h
      · cases h
      · next j hfirst =>
        refine ⟨first, j, hfirst, ?_⟩
        split at h
        · next hwide =>
          split at h
          · cases h
          · next second rest' =>
            split at h
            · cases h
            · next hdone => cases h; exact .inr ⟨hwide, second, hdone, rfl⟩
        · next hnarrow => cases h; exact .inl ⟨by simpa using hnarrow, rfl, rfl⟩
  · rintro ⟨first, j, hfirst, ⟨hnarrow, rfl, rfl⟩ | ⟨hwide, second, hdone, rfl⟩⟩
    · simp [decode, hfirst, hnarrow]
    · simp [decode, hfirst, hwide, hdone]

end Sys2Proof

namespace Sys2Proof.Machine

variable {s : State} {i j : Instr}

theorem fetch_outside (h : s.pc < 0 ∨ (s.prog.length : Int) ≤ s.pc) : fetch s = .error (.pcOutOfRange s.pc) := by
  simp only [fetch, if_pos h]

theorem fetchSecond_accepted {second : Slot} (hslot : s.prog[s.pc.toNat + 1]? = some second)
    (hdone : completeWide i (second.fields s.params.endian) = .ok j) : fetchSecond s i = .ok j := by
  simp only [fetchSecond, hslot, hdone]

theorem fetchSecond_missing (hslot : s.prog[s.pc.toNat + 1]? = none) :
    fetchSecond s i = .error (.pcOutOfRange (s.pc + 1)) := by
  simp only [fetchSecond, hslot]

theorem getElem?_of_drop_eq {α : Type} {l tail : List α} {n : Nat} (h : l.drop n = tail) (k : Nat) :
    l[n + k]? = tail[k]? := by
  rw [← h, List.getElem?_drop]

/-- Fetch gives what the slots at `pc` decode to (R114). -/
theorem fetch_of_decode {rest : List Slot} (hnonneg : 0 ≤ s.pc)
    (hnotSecond : isSecondSlot s.params.endian s.prog s.pc.toNat = false)
    (hdec : decode s.params.endian (s.prog.drop s.pc.toNat) = .ok (i, rest)) (hwf : wellFormed s.params i = true) :
    fetch s = .ok i := by
  obtain ⟨first, j, hfirst, ⟨hnarrow, rfl, hslots⟩ | ⟨hwide, second, hdone, hslots⟩⟩ := decode_eq_ok_iff.mp hdec
  · rw [fetch_accepted ⟨hnonneg, getElem?_of_drop_eq hslots 0, hnotSecond⟩ hfirst hwf, hnarrow]
    rfl
  · rw [completeWide_ok hdone, wellFormed_withNext] at hwf
    rw [fetch_accepted ⟨hnonneg, getElem?_of_drop_eq hslots 0, hnotSecond⟩ hfirst hwf, if_pos hwide,
      fetchSecond_accepted (getElem?_of_drop_eq hslots 1) hdone]

end Sys2Proof.Machine

/-- Settles O1: the first slot decodes by `decodeFields_encodeFields`, and a second one completes it. -/
theorem decodeEncodeRoundTrip : Obligations.DecodeEncodeRoundTrip := by
  intro e i rest
  refine decode_eq_ok_iff.mpr ⟨(encodeFields i).slot e, i.withNext 0, ?_, ?_⟩
  · rw [Fields.fields_slot, decodeFields_encodeFields]
  · rw [Instr.isWide_withNext, encode]
    cases hwide : i.isWide with
    | false =>
      have hunused : i.usesNext = false := by rw [Instr.usesNext, hwide, Bool.false_and]
      exact .inl ⟨rfl, by rw [← Instr.nextImm_eq_zero hunused, i.withNext_nextImm], rfl⟩
    | true => exact .inr ⟨rfl, _, by rw [Fields.fields_slot, completeWide_secondFields], rfl⟩

/-- Settles O2: each slot that decoding reads is made of the fields that encode what it gave (`decodeFields_strict`). -/
theorem decodeIsStrict : Obligations.DecodeIsStrict := by
  intro e slots rest i h
  obtain ⟨first, j, hfirst, hrest⟩ := decode_eq_ok_iff.mp h
  have hfields : (encodeFields j).slot e = first := by
    rw [decodeFields_strict _ j hfirst, Slot.slot_fields]
  obtain ⟨hnarrow, rfl, rfl⟩ | ⟨hwide, second, hdone, rfl⟩ := hrest
  · simp [encode, hnarrow, hfields]
  · have hsecond := secondFields_nextImm_of_completeWide hdone
    obtain rfl := completeWide_ok hdone
    simp [encode, hwide, hfields, hsecond]

/-- Settles O3: the fields' bytes in order, the nibbles of byte 1 joined again on a little-endian host. -/
theorem canonicalWordOfSlot : Obligations.CanonicalWordOfSlot := by
  intro a b c d e f g h
  have hnibbles : b.extractLsb' 4 4 ++ (b.extractLsb' 0 4 ++ a) = b ++ a := by
    have hassoc := BitVec.append_assoc (x₁ := b.extractLsb' 4 4) (x₂ := b.extractLsb' 0 4) (x₃ := a)
    rw [BitVec.cast_eq] at hassoc
    rw [← hassoc, join_nibbles]
  constructor
  · simp only [Slot.fields, Fields.word, BitVec.append_assoc, BitVec.cast_eq, hnibbles]
  · simp only [Slot.fields, Fields.word, BitVec.append_assoc, BitVec.cast_eq]

/-- Settles O4: eight closed words, evaluated. -/
theorem knownWordsDecode : Obligations.KnownWordsDecode := by
  unfold Obligations.KnownWordsDecode
  decide

/-- Settles O10: fetch and `decode` read the same slots (`fetch_of_decode`). -/
theorem stepRunsDecoded : Obligations.StepRunsDecoded :=
  fun _ _ _ hrun hnonneg _ hnotSecond hdec hwf => step_of_fetch_ok hrun (fetch_of_decode hnonneg hnotSecond hdec hwf)

/-- Settles O11: no first slot at `pc`, or no second one at `pc + 1`. -/
theorem fetchOutsideProgram : Obligations.FetchOutsideProgram := by
  refine fun s hrun => ⟨fun hout => step_of_fetch_error hrun (fetch_outside hout),
    fun first i hnonneg hlast hslot hnotSecond hdec hwf hwide => step_of_fetch_error hrun ?_⟩
  have hmissing : s.prog[s.pc.toNat + 1]? = none := List.getElem?_eq_none (by omega)
  rw [fetch_accepted ⟨hnonneg, hslot, hnotSecond⟩ hdec hwf, if_pos hwide, fetchSecond_missing hmissing]

/-- Settles O12: the recursion of `isSecondSlot`, on whether there is a slot `j`. -/
theorem secondSlots : Obligations.SecondSlots := by
  refine fun e prog => ⟨rfl, fun j => ?_⟩
  rw [isSecondSlot]
  cases prog[j]? with
  | none => simp
  | some slot => simp [and_comm]
end

section
/-! PROOFS. Arithmetic at one width (R201 to R205): the value of each operation as a number, for operands that may be
the low halves of registers. -/

open Sys2Proof Sys2Proof.Machine

namespace Sys2Proof.Machine

variable {n : Nat} {a b ov : BitVec n} {x y : Word64} {imm : Word32}

/-! ## Views of a value -/

theorem low32_toNat (x : Word64) : (low32 x).toNat = x.toNat % 2 ^ 32 := BitVec.toNat_setWidth ..

/-- A zero-extended value is the same number (R206). -/
theorem zext32_toNat (v : Word32) : (zext32 v).toNat = v.toNat := BitVec.toNat_setWidth_of_le (by decide)

/-- A bit vector made from an integer holds its residue. -/
theorem toNat_ofInt_eq_emod (i : Int) : (BitVec.ofInt n i).toNat = (i % 2 ^ n).toNat := by
  rw [BitVec.toNat_ofInt, Int.natCast_pow, Int.cast_ofNat_Int]

theorem signExtend_toNat {m : Nat} (v : BitVec m) : (v.signExtend n).toNat = (v.toInt % 2 ^ n).toNat :=
  toNat_ofInt_eq_emod v.toInt

/-- Bits that lie in the low half are sign-extended to 32 bits as those of the whole register are (R237, R238). -/
theorem low32_signExtend_toNat {w : Nat} (y : Word64) (hw : w ≤ 32) :
    (((low32 y).setWidth w).signExtend 32).toNat = ((y.setWidth w).toInt % 2 ^ 32).toNat := by
  rw [signExtend_toNat, BitVec.setWidth_setWidth_of_le y hw]

/-- The sign-extended immediate keeps the low bits of the immediate (R110). -/
theorem sext32_toNat_mod {w : Nat} (imm : Word32) (hw : w ≤ 32) : (sext32 imm).toNat % 2 ^ w = imm.toNat % 2 ^ w :=
  storedImm_toNat_mod imm hw

/-- The sign-extended immediate is zero for the immediate 0 only. -/
theorem sext32_ne_zero (h : imm ≠ 0) : sext32 imm ≠ 0 := by
  intro hzero
  have hlow := sext32_toNat_mod imm (Nat.le_refl 32)
  rw [hzero, Nat.mod_eq_of_lt imm.isLt] at hlow
  exact h (BitVec.eq_of_toNat_eq hlow.symm)

theorem low32_eq_zero (h : x.toNat % 2 ^ 32 = 0) : low32 x = 0 :=
  BitVec.eq_of_toNat_eq ((low32_toNat x).trans h)

/-! ## Modulo 2^32: only the low halves count (R201) -/

theorem low32_add_toNat {v : Word32} {m : Nat} (hv : v.toNat = m % 2 ^ 32) :
    (low32 x + v).toNat = (x.toNat + m) % 2 ^ 32 := by
  rw [BitVec.toNat_add, low32_toNat, hv, ← Nat.add_mod]

theorem low32_mul_toNat {v : Word32} {m : Nat} (hv : v.toNat = m % 2 ^ 32) :
    (low32 x * v).toNat = x.toNat * m % 2 ^ 32 := by
  rw [BitVec.toNat_mul, low32_toNat, hv, ← Nat.mul_mod]

/-- Subtracting is adding any number `m` that makes up a multiple of 2^32. -/
theorem low32_sub_toNat {v : Word32} {m : Nat} (hm : (v.toNat + m) % 2 ^ 32 = 0) :
    (low32 x - v).toNat = (x.toNat + m) % 2 ^ 32 := by
  rw [BitVec.toNat_sub', low32_toNat]
  omega

/-! ## Division (R202, R203, R204) -/

@[simp] theorem divU_zero : divU a 0 = 0 := if_pos rfl
@[simp] theorem modU_zero : modU a 0 = a := if_pos rfl
@[simp] theorem divS_zero : divS ov a 0 = 0 := if_pos rfl
@[simp] theorem modS_zero : modS ov a 0 = a := if_pos rfl

theorem divU_toNat (hb : b ≠ 0) : (divU a b).toNat = a.toNat / b.toNat := by
  rw [divU, if_neg hb, BitVec.toNat_ofNat, Nat.mod_eq_of_lt ((Nat.div_le_self ..).trans_lt a.isLt)]

theorem modU_toNat (hb : b ≠ 0) : (modU a b).toNat = a.toNat % b.toNat := by
  rw [modU, if_neg hb, BitVec.toNat_ofNat, Nat.mod_eq_of_lt ((Nat.mod_le ..).trans_lt a.isLt)]

/-- The overflowing pair, as signed numbers (R203). -/
theorem sdivOverflows_iff (hn : 0 < n) : sdivOverflows a b = true ↔ a.toInt = -2 ^ (n - 1) ∧ b.toInt = -1 := by
  have hmin : (BitVec.intMin n).toInt = -2 ^ (n - 1) := BitVec.toInt_intMin_of_pos hn
  have hones : (BitVec.allOnes n).toInt = -1 := by rw [BitVec.toInt_allOnes, if_pos hn]
  rw [sdivOverflows, Bool.and_eq_true, beq_iff_eq, beq_iff_eq, ← hmin, ← hones, BitVec.toInt_inj, BitVec.toInt_inj]

theorem divS_of_overflow (hb : b ≠ 0) (h : sdivOverflows a b = true) : divS ov a b = ov := by
  rw [divS, if_neg hb, if_pos h]

theorem modS_of_overflow (hb : b ≠ 0) (h : sdivOverflows a b = true) : modS ov a b = ov := by
  rw [modS, if_neg hb, if_pos h]

theorem divS_toNat (hb : b ≠ 0) (h : ¬ sdivOverflows a b = true) :
    (divS ov a b).toNat = (a.toInt.tdiv b.toInt % 2 ^ n).toNat := by
  rw [divS, if_neg hb, if_neg h, toNat_ofInt_eq_emod]

theorem modS_toNat (hb : b ≠ 0) (h : ¬ sdivOverflows a b = true) :
    (modS ov a b).toNat = (a.toInt.tmod b.toInt % 2 ^ n).toNat := by
  rw [modS, if_neg hb, if_neg h, toNat_ofInt_eq_emod]

/-! ## Shifts (R205) -/

/-- Masking by 0x1F is reducing modulo 32. -/
theorem shift32_eq_mod (v : Word32) : shift32 v = v.toNat % 32 := Nat.and_two_pow_sub_one_eq_mod v.toNat 5

/-- Masking by 0x3F is reducing modulo 64. -/
theorem shift64_eq_mod (v : Word64) : shift64 v = v.toNat % 64 := Nat.and_two_pow_sub_one_eq_mod v.toNat 6

theorem shift32_low32 (y : Word64) : shift32 (low32 y) = y.toNat % 32 := by
  rw [shift32_eq_mod, low32_toNat]
  omega

theorem shift64_sext32 (imm : Word32) : shift64 (sext32 imm) = imm.toNat % 64 :=
  (shift64_eq_mod _).trans (sext32_toNat_mod (w := 6) imm (by decide))

theorem shiftLeft_toNat (a : BitVec n) (k : Nat) : (a <<< k).toNat = a.toNat * 2 ^ k % 2 ^ n := by
  rw [BitVec.toNat_shiftLeft, Nat.shiftLeft_eq]

theorem ushiftRight_toNat (a : BitVec n) (k : Nat) : (a >>> k).toNat = a.toNat / 2 ^ k := by
  rw [BitVec.toNat_ushiftRight, Nat.shiftRight_eq_div_pow]

theorem low32_shiftLeft_toNat (x : Word64) (k : Nat) : (low32 x <<< k).toNat = x.toNat * 2 ^ k % 2 ^ 32 := by
  rw [shiftLeft_toNat, low32_toNat, Nat.mod_mul_mod]

theorem low32_ushiftRight_toNat (x : Word64) (k : Nat) : (low32 x >>> k).toNat = x.toNat % 2 ^ 32 / 2 ^ k := by
  rw [ushiftRight_toNat, low32_toNat]

/-- Shifting in copies of the top bit divides the signed number, rounding down. -/
theorem sshiftRight_toNat (a : BitVec n) (k : Nat) : (a.sshiftRight k).toNat = (a.toInt / 2 ^ k % 2 ^ n).toNat := by
  rw [BitVec.sshiftRight, toNat_ofInt_eq_emod, Int.shiftRight_eq_div_pow, Int.natCast_pow, Int.cast_ofNat_Int]

end Sys2Proof.Machine
end

section
/-! PROOFS. The instructions of classes ALU and ALU64 (R200, R206, R250): each completes by writing the value of its
operation on the operands, and for each operation that value is known as a number. -/

open Sys2Proof Sys2Proof.Machine

namespace Sys2Proof.Machine

variable {s : State} {d src : Reg} {b : Operand} {i : Instr} {x y : Word64} {z : Word32} {v : Nat}

/-! ## Source operands -/

/-- The source operand of class ALU has the value `z` (R200). -/
def Operand.Gives32 (b : Operand) (s : State) (z : Word32) : Prop := ∀ k, source32 b s k = k z

/-- The source operand of class ALU64 has the value `y` (R250). -/
def Operand.Gives64 (b : Operand) (s : State) (y : Word64) : Prop := ∀ k, source64 b s k = k y

theorem gives32_imm (imm : Word32) : (Operand.imm imm).Gives32 s imm := fun _ => rfl

theorem gives64_imm (imm : Word32) : (Operand.imm imm).Gives64 s (sext32 imm) := fun _ => rfl

theorem gives32_reg (hy : s.regs[src] = .written y) : (Operand.reg src).Gives32 s (low32 y) :=
  fun _ => readReg_written hy

theorem gives64_reg (hy : s.regs[src] = .written y) : (Operand.reg src).Gives64 s y :=
  fun _ => readReg_written hy

/-! ## What each family's operation completes with -/

theorem writesOnly_of_finish {w : Word64} {len : Int} (hexec : exec i s = finish s d w len) (hw : w.toNat = v) :
    writesOnly i s d v len := by
  rw [writesOnly, hexec, ← hw, BitVec.ofNat_toNat, BitVec.setWidth_eq]
  rfl

theorem alu32_completes {f : Word32 → Word32 → Word32} (hx : s.regs[d] = .written x) (hz : b.Gives32 s z) :
    alu32 f d b s = finish s d (zext32 (f (low32 x) z)) 1 := by
  rw [alu32, readReg_written hx, hz]

theorem alu64_completes {f : Word64 → Word64 → Word64} (hx : s.regs[d] = .written x) (hy : b.Gives64 s y) :
    alu64 f d b s = finish s d (f x y) 1 := by
  rw [alu64, readReg_written hx, hy]

theorem writesOnly_of_alu32 (f : Word32 → Word32 → Word32) (hx : s.regs[d] = .written x)
    (hz : b.Gives32 s z) (hexec : exec i s = alu32 f d b s) (hv : (f (low32 x) z).toNat = v) : writesOnly i s d v 1 :=
  writesOnly_of_finish (hexec.trans (alu32_completes hx hz)) ((zext32_toNat _).trans hv)

theorem writesOnly_of_alu64 (f : Word64 → Word64 → Word64) (hx : s.regs[d] = .written x)
    (hy : b.Gives64 s y) (hexec : exec i s = alu64 f d b s) (hv : (f x y).toNat = v) : writesOnly i s d v 1 :=
  writesOnly_of_finish (hexec.trans (alu64_completes hx hy)) hv

theorem writesOnly_of_move32 (f : Word32 → Word32) (hz : b.Gives32 s z) (hexec : exec i s = move32 f d b s)
    (hv : (f z).toNat = v) : writesOnly i s d v 1 :=
  writesOnly_of_finish (hexec.trans (hz _)) ((zext32_toNat _).trans hv)

theorem writesOnly_of_move64 (f : Word64 → Word64) (hy : b.Gives64 s y) (hexec : exec i s = move64 f d b s)
    (hv : (f y).toNat = v) : writesOnly i s d v 1 :=
  writesOnly_of_finish (hexec.trans (hy _)) hv

theorem neg32_completes (hx : s.regs[d] = .written x) : neg32 d s = finish s d (zext32 (-low32 x)) 1 :=
  readReg_written hx

theorem neg64_completes (hx : s.regs[d] = .written x) : neg64 d s = finish s d (-x) 1 :=
  readReg_written hx

/-- Writing a register's own value changes nothing. -/
theorem State.setReg_of_written (hx : s.regs[d] = .written x) : s.setReg d x = s := by
  rw [State.setReg, ← hx]
  exact congrArg (fun regs => { s with regs := regs }) (Vector.set_getElem_self d.isLt)

/-- An operation of class ALU64 that gives its first operand back only goes on to the next instruction. -/
theorem exec_of_alu64_self (f : Word64 → Word64 → Word64) (hx : s.regs[d] = .written x) (hy : b.Gives64 s y)
    (hexec : exec i s = alu64 f d b s) (hf : f x y = x) : exec i s = .next { s with pc := s.pc + 1 } := by
  rw [hexec, alu64_completes hx hy, hf, finish, State.setReg_of_written hx]
  rfl

/-! ## Signed division -/

/-- SDIV and SMOD of class ALU, for either form of a divisor that is not zero (R203). -/
theorem signed_division32 {j : Instr} (hx : s.regs[d] = .written x) (hz : b.Gives32 s z) (hne : z ≠ 0)
    (hdiv : exec i s = alu32 (divS s.params.sdivOverflow.quot32) d b s)
    (hmod : exec j s = alu32 (modS s.params.sdivOverflow.rem32) d b s) :
    ((low32 x).toInt = -2 ^ 31 ∧ z.toInt = -1 →
      writesOnly i s d s.params.sdivOverflow.quot32.toNat 1 ∧ writesOnly j s d s.params.sdivOverflow.rem32.toNat 1) ∧
    (¬ ((low32 x).toInt = -2 ^ 31 ∧ z.toInt = -1) →
      writesOnly i s d ((low32 x).toInt.tdiv z.toInt % 2 ^ 32).toNat 1 ∧
      writesOnly j s d ((low32 x).toInt.tmod z.toInt % 2 ^ 32).toNat 1) := by
  rw [← sdivOverflows_iff (n := 32) (by decide)]
  refine ⟨fun hov => ⟨?_, ?_⟩, fun hov => ⟨?_, ?_⟩⟩
  · exact writesOnly_of_alu32 (divS _) hx hz hdiv (congrArg _ (divS_of_overflow hne hov))
  · exact writesOnly_of_alu32 (modS _) hx hz hmod (congrArg _ (modS_of_overflow hne hov))
  · exact writesOnly_of_alu32 (divS _) hx hz hdiv (divS_toNat hne hov)
  · exact writesOnly_of_alu32 (modS _) hx hz hmod (modS_toNat hne hov)

/-- SDIV and SMOD of class ALU64, for either form of a divisor that is not zero (R203). -/
theorem signed_division64 {j : Instr} (hx : s.regs[d] = .written x) (hy : b.Gives64 s y) (hne : y ≠ 0)
    (hdiv : exec i s = alu64 (divS s.params.sdivOverflow.quot64) d b s)
    (hmod : exec j s = alu64 (modS s.params.sdivOverflow.rem64) d b s) :
    (x.toInt = -2 ^ 63 ∧ y.toInt = -1 →
      writesOnly i s d s.params.sdivOverflow.quot64.toNat 1 ∧ writesOnly j s d s.params.sdivOverflow.rem64.toNat 1) ∧
    (¬ (x.toInt = -2 ^ 63 ∧ y.toInt = -1) →
      writesOnly i s d (x.toInt.tdiv y.toInt % 2 ^ 64).toNat 1 ∧
      writesOnly j s d (x.toInt.tmod y.toInt % 2 ^ 64).toNat 1) := by
  rw [← sdivOverflows_iff (n := 64) (by decide)]
  refine ⟨fun hov => ⟨?_, ?_⟩, fun hov => ⟨?_, ?_⟩⟩
  · exact writesOnly_of_alu64 (divS _) hx hy hdiv (congrArg _ (divS_of_overflow hne hov))
  · exact writesOnly_of_alu64 (modS _) hx hy hmod (congrArg _ (modS_of_overflow hne hov))
  · exact writesOnly_of_alu64 (divS _) hx hy hdiv (divS_toNat hne hov)
  · exact writesOnly_of_alu64 (modS _) hx hy hmod (modS_toNat hne hov)

end Sys2Proof.Machine

/-- Settles O26: each operation on low halves, as a number (`low32_add_toNat` and its like). -/
theorem alu32Results : Obligations.Alu32Results := by
  refine fun s d x hx => ⟨fun imm => ?K, fun src y hy => ?X⟩
  case K =>
    have hz := gives32_imm (s := s) imm
    have hmod : imm.toNat = imm.toNat % 2 ^ 32 := (Nat.mod_eq_of_lt imm.isLt).symm
    refine ⟨?add, ?sub, ?mul, ?or, ?and, ?xor⟩
    case add => exact writesOnly_of_alu32 (· + ·) hx hz rfl (low32_add_toNat hmod)
    case sub => exact writesOnly_of_alu32 (· - ·) hx hz rfl (low32_sub_toNat (by omega))
    case mul => exact writesOnly_of_alu32 (· * ·) hx hz rfl (low32_mul_toNat hmod)
    case or => exact writesOnly_of_alu32 (· ||| ·) hx hz rfl (by rw [BitVec.toNat_or, low32_toNat])
    case and => exact writesOnly_of_alu32 (· &&& ·) hx hz rfl (by rw [BitVec.toNat_and, low32_toNat])
    case xor => exact writesOnly_of_alu32 (· ^^^ ·) hx hz rfl (by rw [BitVec.toNat_xor, low32_toNat])
  case X =>
    have hz := gives32_reg hy
    have hmod := low32_toNat y
    refine ⟨?add, ?sub, ?mul, ?or, ?and, ?xor⟩
    case add => exact writesOnly_of_alu32 (· + ·) hx hz rfl (low32_add_toNat hmod)
    case sub => exact writesOnly_of_alu32 (· - ·) hx hz rfl (low32_sub_toNat (by omega))
    case mul => exact writesOnly_of_alu32 (· * ·) hx hz rfl (low32_mul_toNat hmod)
    case or =>
      exact writesOnly_of_alu32 (· ||| ·) hx hz rfl (by rw [← BitVec.setWidth_or, low32_toNat, BitVec.toNat_or])
    case and =>
      exact writesOnly_of_alu32 (· &&& ·) hx hz rfl (by rw [← BitVec.setWidth_and, low32_toNat, BitVec.toNat_and])
    case xor =>
      exact writesOnly_of_alu32 (· ^^^ ·) hx hz rfl (by rw [← BitVec.setWidth_xor, low32_toNat, BitVec.toNat_xor])

/-- Settles O27: the operations of `BitVec 64` as numbers, for either form of the source operand. -/
theorem alu64Results : Obligations.Alu64Results := by
  refine fun s d x hx => ⟨fun imm => ?K, fun src y hy => ?X⟩
  case' K => have hy := gives64_imm (s := s) imm
  case' X => have hy := gives64_reg hy
  all_goals
    refine ⟨?add, ?sub, ?mul, ?or, ?and, ?xor⟩
    case add => exact writesOnly_of_alu64 (· + ·) hx hy rfl (BitVec.toNat_add ..)
    case sub => exact writesOnly_of_alu64 (· - ·) hx hy rfl (BitVec.toNat_sub' ..)
    case mul => exact writesOnly_of_alu64 (· * ·) hx hy rfl (BitVec.toNat_mul ..)
    case or => exact writesOnly_of_alu64 (· ||| ·) hx hy rfl (BitVec.toNat_or ..)
    case and => exact writesOnly_of_alu64 (· &&& ·) hx hy rfl (BitVec.toNat_and ..)
    case xor => exact writesOnly_of_alu64 (· ^^^ ·) hx hy rfl (BitVec.toNat_xor ..)

/-- Settles O28: `divU_toNat` and `modU_toNat`; an immediate that is not zero is not zero sign-extended either. -/
theorem unsignedDivision : Obligations.UnsignedDivision := by
  refine fun s d x hx => ⟨fun imm hne => ?K, fun src y hy => ⟨fun hne => ?X32, fun hne => ?X64⟩⟩
  case K =>
    have hz := gives32_imm (s := s) imm
    have hy := gives64_imm (s := s) imm
    have hne64 := sext32_ne_zero hne
    refine ⟨?div32, ?mod32, ?div64, ?mod64⟩
    case div32 => exact writesOnly_of_alu32 divU hx hz rfl (by rw [divU_toNat hne, low32_toNat])
    case mod32 => exact writesOnly_of_alu32 modU hx hz rfl (by rw [modU_toNat hne, low32_toNat])
    case div64 => exact writesOnly_of_alu64 divU hx hy rfl (divU_toNat hne64)
    case mod64 => exact writesOnly_of_alu64 modU hx hy rfl (modU_toNat hne64)
  case X32 =>
    have hz := gives32_reg hy
    exact ⟨writesOnly_of_alu32 divU hx hz rfl (by rw [divU_toNat hne, low32_toNat, low32_toNat]),
      writesOnly_of_alu32 modU hx hz rfl (by rw [modU_toNat hne, low32_toNat, low32_toNat])⟩
  case X64 =>
    have hy := gives64_reg hy
    exact ⟨writesOnly_of_alu64 divU hx hy rfl (divU_toNat hne), writesOnly_of_alu64 modU hx hy rfl (modU_toNat hne)⟩

/-- Settles O29: one lemma per class (`signed_division32`, `signed_division64`), for either form of the divisor. -/
theorem signedDivision : Obligations.SignedDivision := by
  refine fun s d x hx => ⟨fun z hne i hi => ?alu, fun y hne i hi => ?alu64⟩
  case alu =>
    obtain rfl | ⟨src, y, hy, rfl, rfl⟩ := hi
    · exact signed_division32 hx (gives32_imm z) hne rfl rfl
    · exact signed_division32 hx (gives32_reg hy) hne rfl rfl
  case alu64 =>
    obtain ⟨imm, rfl, rfl⟩ | ⟨src, hy, rfl⟩ := hi
    · exact signed_division64 hx (gives64_imm imm) hne rfl rfl
    · exact signed_division64 hx (gives64_reg hy) hne rfl rfl

/-- Settles O30: the zero divisor of each operation (`divU_zero` and its like), for either form of the operand. -/
theorem divisionByZero : Obligations.DivisionByZero := by
  intro s d x hx
  simp only [List.forall_mem_cons, List.not_mem_nil, false_implies, implies_true, and_true]
  have hlow := low32_toNat x
  have hz : (Operand.imm 0).Gives32 s 0 := gives32_imm 0
  have hy : (Operand.imm 0).Gives64 s 0 := gives64_imm 0
  refine ⟨⟨?div32, ?sdiv32, ?div64, ?sdiv64⟩, ⟨?mod32, ?smod32⟩, ⟨?mod64, ?smod64⟩, fun src y hsrc =>
    ⟨fun hzero => ?X32, fun hzero => ?X64⟩⟩
  case div32 => exact writesOnly_of_alu32 divU hx hz rfl (congrArg _ divU_zero)
  case sdiv32 => exact writesOnly_of_alu32 (divS _) hx hz rfl (congrArg _ divS_zero)
  case div64 => exact writesOnly_of_alu64 divU hx hy rfl (congrArg _ divU_zero)
  case sdiv64 => exact writesOnly_of_alu64 (divS _) hx hy rfl (congrArg _ divS_zero)
  case mod32 => exact writesOnly_of_alu32 modU hx hz rfl (by rw [modU_zero, hlow])
  case smod32 => exact writesOnly_of_alu32 (modS _) hx hz rfl (by rw [modS_zero, hlow])
  case mod64 => exact exec_of_alu64_self modU hx hy rfl modU_zero
  case smod64 => exact exec_of_alu64_self (modS _) hx hy rfl modS_zero
  case X32 =>
    have hz : (Operand.reg src).Gives32 s 0 := low32_eq_zero hzero ▸ gives32_reg hsrc
    refine ⟨⟨?div, ?sdiv⟩, ?mod, ?smod⟩
    case div => exact writesOnly_of_alu32 divU hx hz rfl (congrArg _ divU_zero)
    case sdiv => exact writesOnly_of_alu32 (divS _) hx hz rfl (congrArg _ divS_zero)
    case mod => exact writesOnly_of_alu32 modU hx hz rfl (by rw [modU_zero, hlow])
    case smod => exact writesOnly_of_alu32 (modS _) hx hz rfl (by rw [modS_zero, hlow])
  case X64 =>
    have hy : (Operand.reg src).Gives64 s 0 := hzero ▸ gives64_reg hsrc
    refine ⟨⟨?div, ?sdiv⟩, ?mod, ?smod⟩
    case div => exact writesOnly_of_alu64 divU hx hy rfl (congrArg _ divU_zero)
    case sdiv => exact writesOnly_of_alu64 (divS _) hx hy rfl (congrArg _ divS_zero)
    case mod => exact exec_of_alu64_self modU hx hy rfl modU_zero
    case smod => exact exec_of_alu64_self (modS _) hx hy rfl modS_zero

/-- Settles O31: the amount as a residue (`shift32_eq_mod` and its like), and each shift by it as a number. -/
theorem shiftResults : Obligations.ShiftResults := by
  refine fun s d x hx => ⟨fun imm => ?K, fun src y hy => ?X⟩
  case' K =>
    have hz := gives32_imm (s := s) imm
    have hy := gives64_imm (s := s) imm
    rw [← shift32_eq_mod, ← shift64_sext32]
  case' X =>
    have hz := gives32_reg hy
    have hy := gives64_reg hy
    rw [← shift32_low32, ← shift64_eq_mod]
  all_goals
    refine ⟨?lsh32, ?rsh32, ?arsh32, ?lsh64, ?rsh64, ?arsh64⟩
    case lsh32 => exact writesOnly_of_alu32 (fun a b => a <<< shift32 b) hx hz rfl (low32_shiftLeft_toNat ..)
    case rsh32 => exact writesOnly_of_alu32 (fun a b => a >>> shift32 b) hx hz rfl (low32_ushiftRight_toNat ..)
    case arsh32 => exact writesOnly_of_alu32 (fun a b => a.sshiftRight (shift32 b)) hx hz rfl (sshiftRight_toNat ..)
    case lsh64 => exact writesOnly_of_alu64 (fun a b => a <<< shift64 b) hx hy rfl (shiftLeft_toNat ..)
    case rsh64 => exact writesOnly_of_alu64 (fun a b => a >>> shift64 b) hx hy rfl (ushiftRight_toNat ..)
    case arsh64 => exact writesOnly_of_alu64 (fun a b => a.sshiftRight (shift64 b)) hx hy rfl (sshiftRight_toNat ..)

/-- Settles O32: NEG as a number, MOV as it is, and MOVSX by `signExtend_toNat`. -/
theorem negAndMoves : Obligations.NegAndMoves := by
  refine fun s d => ⟨fun x hx => ⟨?neg32, ?neg64⟩, fun imm => ⟨?mov32K, ?mov64K⟩, fun src y hy => ?X⟩
  case neg32 => exact writesOnly_of_finish (neg32_completes hx) (by rw [zext32_toNat, BitVec.toNat_neg, low32_toNat])
  case neg64 => exact writesOnly_of_finish (neg64_completes hx) (BitVec.toNat_neg x)
  case mov32K => exact writesOnly_of_move32 (fun v => v) (gives32_imm imm) rfl rfl
  case mov64K => exact writesOnly_of_move64 (fun v => v) (gives64_imm imm) rfl (signExtend_toNat imm)
  case X =>
    have hz := gives32_reg hy
    have hy := gives64_reg hy
    refine ⟨?mov32, ?mov64, ?sx8to32, ?sx16to32, ?sx8to64, ?sx16to64, ?sx32to64⟩
    case mov32 => exact writesOnly_of_move32 (fun v => v) hz rfl (low32_toNat y)
    case mov64 => exact writesOnly_of_move64 (fun v => v) hy rfl rfl
    case sx8to32 =>
      exact writesOnly_of_move32 (fun v => (v.setWidth 8).signExtend 32) hz rfl (low32_signExtend_toNat y (by decide))
    case sx16to32 =>
      exact writesOnly_of_move32 (fun v => (v.setWidth 16).signExtend 32) hz rfl (low32_signExtend_toNat y (by decide))
    case sx8to64 => exact writesOnly_of_move64 (fun v => (v.setWidth 8).signExtend 64) hy rfl (signExtend_toNat _)
    case sx16to64 => exact writesOnly_of_move64 (fun v => (v.setWidth 16).signExtend 64) hy rfl (signExtend_toNat _)
    case sx32to64 => exact writesOnly_of_move64 (fun v => (v.setWidth 32).signExtend 64) hy rfl (signExtend_toNat _)
end

section
/-! PROOFS. Jumps (R320 to R325): where control goes next, and each condition as a comparison of numbers. -/

open Sys2Proof Sys2Proof.Machine

namespace Sys2Proof.Machine

variable {s : State} {d : Reg} {b : Operand} {i : Instr} {c : Cond} {off : Off} {x y : Word64} {z : Word32}

/-! ## Targets (R320) -/

theorem State.jumpBy_eq (s : State) (off : Off) : s.jumpBy off = { s with pc := s.pc + 1 + off.toInt } := by
  rw [State.jumpBy, State.advance, Int.add_assoc]

theorem State.jumpFar_eq (s : State) (imm : Word32) : s.jumpFar imm = { s with pc := s.pc + 1 + imm.toInt } := by
  rw [State.jumpFar, State.advance, Int.add_assoc]

/-! ## Conditions (R323) -/

/-- What each condition asks of its operands as numbers, signed for the S conditions; no bit vectors are compared. -/
def Cond.Compares {n : Nat} (c : Cond) (a b : BitVec n) : Prop :=
  match c with
  | .eq => a.toNat = b.toNat
  | .gt => a.toNat > b.toNat
  | .ge => a.toNat ≥ b.toNat
  | .set => a.toNat &&& b.toNat ≠ 0
  | .ne => a.toNat ≠ b.toNat
  | .sgt => a.toInt > b.toInt
  | .sge => a.toInt ≥ b.toInt
  | .lt => a.toNat < b.toNat
  | .le => a.toNat ≤ b.toNat
  | .slt => a.toInt < b.toInt
  | .sle => a.toInt ≤ b.toInt

/-- Equality and the common bit are the conditions that the model asks of the bit vectors themselves. -/
theorem Cond.holds_iff_compares {n : Nat} (c : Cond) (a b : BitVec n) : c.holds a b = true ↔ c.Compares a b := by
  cases c with
  | eq => exact decide_eq_true_iff.trans BitVec.toNat_inj.symm
  | ne => exact decide_eq_true_iff.trans BitVec.toNat_inj.not.symm
  | set =>
    have hzero : a &&& b = 0 ↔ a.toNat &&& b.toNat = 0 := by
      rw [← BitVec.toNat_inj, BitVec.toNat_and, BitVec.ofNat_eq_ofNat, BitVec.toNat_zero]
    exact decide_eq_true_iff.trans hzero.not
  | gt | ge | sgt | sge | lt | le | slt | sle => exact decide_eq_true_iff

/-! ## Conditional jumps (R320, R321) -/

theorem branch64_completes (hx : s.regs[d] = .written x) (hy : b.Gives64 s y) :
    branch64 c d b off s = .next (if c.holds x y then s.jumpBy off else s.advance 1) := by
  rw [branch64, readReg_written hx, hy]

theorem branch32_completes (hx : s.regs[d] = .written x) (hz : b.Gives32 s z) :
    branch32 c d b off s = .next (if c.holds (low32 x) z then s.jumpBy off else s.advance 1) := by
  rw [branch32, readReg_written hx, hz]

/-- An instruction that goes by `c` on operands of either width jumps as `c` compares them. -/
theorem jumps_of_holds {n : Nat} {a a' : BitVec n}
    (hexec : exec i s = .next (if c.holds a a' then s.jumpBy off else s.advance 1)) :
    jumps i s (c.Compares a a') off.toInt := by
  rw [jumps, hexec, ← Cond.holds_iff_compares]
  refine ⟨fun htaken => ?_, fun hnot => ?_⟩
  · rw [if_pos htaken, State.jumpBy_eq]
  · rw [if_neg hnot, State.advance]

theorem jumps_of_branch64 (c : Cond) (hx : s.regs[d] = .written x) (hy : b.Gives64 s y)
    (hexec : exec i s = branch64 c d b off s) : jumps i s (c.Compares x y) off.toInt :=
  jumps_of_holds (hexec.trans (branch64_completes hx hy))

theorem jumps_of_branch32 (c : Cond) (hx : s.regs[d] = .written x) (hz : b.Gives32 s z)
    (hexec : exec i s = branch32 c d b off s) : jumps i s (c.Compares (low32 x) z) off.toInt :=
  jumps_of_holds (hexec.trans (branch32_completes hx hz))

end Sys2Proof.Machine

/-- Settles O34: the two forms of a target, by `off` and by `imm`. -/
theorem unconditionalJumps : Obligations.UnconditionalJumps :=
  fun s => ⟨fun off => congrArg Host.Outcome.next (s.jumpBy_eq off),
    fun imm => congrArg Host.Outcome.next (s.jumpFar_eq imm)⟩

/-- Settles O35: the eleven conditions (`jumps_of_branch64`), for either form of the source operand. -/
theorem branches64 : Obligations.Branches64 := by
  refine fun s d x y off hx => ⟨fun imm himm => ?K, fun src hsrc => ?X⟩
  case' K => have hy : (Operand.imm imm).Gives64 s y := himm ▸ gives64_imm imm
  case' X => have hy := gives64_reg hsrc
  all_goals
    refine ⟨?eq, ?ne, ?gt, ?ge, ?lt, ?le, ?sgt, ?sge, ?slt, ?sle, ?set⟩
    case eq => exact jumps_of_branch64 .eq hx hy rfl
    case ne => exact jumps_of_branch64 .ne hx hy rfl
    case gt => exact jumps_of_branch64 .gt hx hy rfl
    case ge => exact jumps_of_branch64 .ge hx hy rfl
    case lt => exact jumps_of_branch64 .lt hx hy rfl
    case le => exact jumps_of_branch64 .le hx hy rfl
    case sgt => exact jumps_of_branch64 .sgt hx hy rfl
    case sge => exact jumps_of_branch64 .sge hx hy rfl
    case slt => exact jumps_of_branch64 .slt hx hy rfl
    case sle => exact jumps_of_branch64 .sle hx hy rfl
    case set => exact jumps_of_branch64 .set hx hy rfl

/-- Settles O36: the eleven conditions on low halves (`jumps_of_branch32`), for either form of the source operand. -/
theorem branches32 : Obligations.Branches32 := by
  rintro s d x _ z off hx rfl
  refine ⟨?K, fun src y hsrc hlow => ?X⟩
  case' K => have hz := gives32_imm (s := s) z
  case' X => have hz : (Operand.reg src).Gives32 s z := hlow ▸ gives32_reg hsrc
  all_goals
    refine ⟨?eq, ?ne, ?gt, ?ge, ?lt, ?le, ?sgt, ?sge, ?slt, ?sle, ?set⟩
    case eq => exact jumps_of_branch32 .eq hx hz rfl
    case ne => exact jumps_of_branch32 .ne hx hz rfl
    case gt => exact jumps_of_branch32 .gt hx hz rfl
    case ge => exact jumps_of_branch32 .ge hx hz rfl
    case lt => exact jumps_of_branch32 .lt hx hz rfl
    case le => exact jumps_of_branch32 .le hx hz rfl
    case sgt => exact jumps_of_branch32 .sgt hx hz rfl
    case sge => exact jumps_of_branch32 .sge hx hz rfl
    case slt => exact jumps_of_branch32 .slt hx hz rfl
    case sle => exact jumps_of_branch32 .sle hx hz rfl
    case set => exact jumps_of_branch32 .set hx hz rfl
end

section
/-! PROOFS. Calls and exit (R380 to R387): what a local call saves and hands to its function, what EXIT restores from
the frame, and what a helper call makes of the answer at its pair. Settles the statements on the four instructions, and
that a run never changes what the platform answers. -/

open Sys2Proof Sys2Proof.Machine

namespace Sys2Proof.Machine

variable {s t : State} {i : Instr} {imm id : Word32} {kind : HelperKind}

/-! ## Local calls (R382, R386) -/

theorem State.depthReached_eq_false_iff :
    s.depthReached = false ↔ ∀ n, s.params.maxCallDepth = some n → s.callStack.length < n := by
  cases hmax : s.params.maxCallDepth <;> simp [State.depthReached, hmax]

/-- A call below the depth limit completes. -/
theorem exec_callLocal (imm : Word32) (hd : s.depthReached = false) :
    exec (.callLocal imm) s = .next (s.pushFrame.jumpFar imm) :=
  if_neg (by simp [hd])

theorem State.saved_pcOnly (hconv : s.params.localCallConv = .pcOnly) : s.saved = none := by
  simp [State.saved, hconv]

theorem State.saved_linuxAbi (hconv : s.params.localCallConv = .linuxAbi) :
    s.saved = some ⟨s.regs[6], s.regs[7], s.regs[8], s.regs[9], s.regs[10]⟩ := by
  simp [State.saved, hconv]

theorem State.calleeRegs_linuxAbi (hconv : s.params.localCallConv = .linuxAbi) :
    s.calleeRegs = #v[s.regs[0], s.regs[1], s.regs[2], s.regs[3], s.regs[4], s.regs[5], .unwritten, .unwritten,
      .unwritten, .unwritten, lowered s.regs[10] s.params.frameStride] := by
  simp [State.calleeRegs, hconv]

/-- The function finds R0 and its arguments as the caller left them. -/
theorem State.calleeRegs_arguments (hconv : s.params.localCallConv = .linuxAbi) {r : Reg} (hr : r.val ≤ 5) :
    s.calleeRegs[r] = s.regs[r] := by
  obtain ⟨n, hn⟩ := r
  rw [State.calleeRegs_linuxAbi hconv]
  interval_cases n <;> rfl

theorem State.calleeRegs_saved (hconv : s.params.localCallConv = .linuxAbi) {r : Reg} (h6 : 6 ≤ r.val)
    (h9 : r.val ≤ 9) : s.calleeRegs[r] = .unwritten := by
  obtain ⟨n, hn⟩ := r
  rw [State.calleeRegs_linuxAbi hconv]
  interval_cases n <;> rfl

theorem State.calleeRegs_r10 (hconv : s.params.localCallConv = .linuxAbi) :
    s.calleeRegs[10] = lowered s.regs[10] s.params.frameStride := by
  rw [State.calleeRegs_linuxAbi hconv]
  rfl

/-- Lowering R10 is subtraction in the integers, taken modulo 2^64 (log 22). -/
theorem lowered_written (x : Word64) (stride : Nat) :
    lowered (.written x) stride = .written (BitVec.ofInt 64 (x.toNat - stride)) := by
  rw [lowered, BitVec.sub_eq_add_neg, Int.sub_eq_add_neg, BitVec.ofInt_add, BitVec.ofInt_neg, BitVec.ofInt_natCast,
    BitVec.ofInt_natCast, BitVec.ofNat_toNat, BitVec.setWidth_eq]

/-! ## EXIT (R384, R387) -/

theorem exec_exit_returns {f : Frame} {rest : List Frame} (hs : s.callStack = f :: rest) :
    exec .exit s = .next { s with callStack := rest, regs := returnRegs f.saved s.regs, pc := f.ret } := by
  simp only [exec, execExit, hs]

theorem exec_exit_ends (hs : s.callStack = []) :
    exec .exit s = readReg 0 s fun x => .next { s with status := .exited x } := by
  simp only [exec, execExit, hs]

/-- The caller's argument registers are gone after a return that restores registers. -/
theorem returnRegs_arguments (v : SavedRegs) (regs : Regs) {r : Reg} (h1 : 1 ≤ r.val) (h5 : r.val ≤ 5) :
    (returnRegs (some v) regs)[r] = .unwritten := by
  obtain ⟨n, hn⟩ := r
  interval_cases n <;> rfl

theorem returnRegs_zero (saved : Option SavedRegs) (regs : Regs) : (returnRegs saved regs)[0] = regs[0] := by
  cases saved <;> rfl

/-- Under `linux_abi` what a call saved is what a return restores, whatever the function left in the registers. -/
theorem returnRegs_saved (hconv : s.params.localCallConv = .linuxAbi) (regs : Regs) {r : Reg} (h6 : 6 ≤ r.val) :
    (returnRegs s.saved regs)[r] = s.regs[r] := by
  obtain ⟨n, hn⟩ := r
  rw [State.saved_linuxAbi hconv]
  interval_cases n <;> rfl

/-- A local call after which the machine still runs has completed, for CALL_LOCAL faults or completes. -/
theorem pushed_of_callLocal (h : exec (.callLocal imm) s = .next t) (hrun : t.status = .running) :
    t = s.pushFrame.jumpFar imm := by
  obtain ⟨-, rfl⟩ | ⟨f, rfl⟩ := execCallLocal_cases h
  · rfl
  · cases hrun

/-! ## Helper calls (R381, R383, R385) -/

/-- `answerAt` answers what the function of the platform gives (log 9, 11). -/
theorem answerAt_of_givesAt {α β : Type} [DecidableEq α] {f : PlatformFn α β} {free : α → β} {x : α} {y : β}
    (h : givesAt f free x y) : answerAt f free x = y := by
  obtain hlisted | ⟨hl, hother | ⟨hnone, hfree⟩⟩ := h
  · exact answerAt_listed hlisted
  · exact answerAt_otherwise hl hother
  · rw [answerAt_free hl hnone, hfree]

/-- `Helper` is undefined exactly at the pairs that the state does not list (R385). -/
theorem State.helperAnswer_eq_none_iff :
    s.helperAnswer kind id = none ↔ tableLookup s.helper (kind, id) = none := by
  rw [← Option.not_isSome_iff_eq_none, State.helperAnswer_isSome, Option.not_isSome_iff_eq_none]

theorem State.helperAnswer_of_givesAt {f : PlatformFn HelperInput HelperEffect} {e : HelperEffect}
    (hf : tableLookup s.helper (kind, id) = some f) (he : givesAt f (Config.helper kind id) s.helperInput e) :
    s.helperAnswer kind id = some e := by
  simp only [State.helperAnswer, hf, answerAt_of_givesAt he]

/-- Both helper calls ask `Helper`, each under its kind (R381, R383). -/
theorem exec_helperCall {row : Instr × HelperKind}
    (hrow : row ∈ ([(.callHelper id, .staticId), (.callBtf id, .btfId)] : List (Instr × HelperKind))) :
    exec row.1 s = callPlatform row.2 id s := by
  simp only [List.mem_cons, List.not_mem_nil, or_false] at hrow
  obtain rfl | rfl := hrow <;> rfl

theorem raises_unknownHelper (hexec : exec i s = callPlatform kind id s) (ha : s.helperAnswer kind id = none) :
    raises i s (.unknownHelper kind id) := by
  simp only [raises, hexec, callPlatform, ha, raise_next]

theorem raises_helperFault {info : Nat} (hexec : exec i s = callPlatform kind id s)
    (ha : s.helperAnswer kind id = some (.fault info)) : raises i s (.helperFault kind id info) := by
  simp only [raises, hexec, callPlatform, ha, raise_next]

/-- A helper call installs the answer; what the bytes become is `applyWrites_get`. -/
theorem takesAnswer_of_helper {regs : Regs} {writes : List (Nat × Option Byte)}
    (hexec : exec i s = callPlatform kind id s) (ha : s.helperAnswer kind id = some (.ok regs writes)) :
    takesAnswer i s regs writes (s.draws + 1) := by
  refine ⟨applyWrites s.params.regions s.mem writes, ?_, applyWrites_get s.params.regions s.mem writes⟩
  simp only [hexec, callPlatform, ha]
  rfl

/-! ## The platform's functions are fixed (R551, R556) -/

theorem State.helperAnswer_congr (hhelper : t.helper = s.helper) (hinput : t.helperInput = s.helperInput) :
    t.helperAnswer kind id = s.helperAnswer kind id := by
  simp only [State.helperAnswer, hhelper, hinput]

theorem State.packetAnswer_congr {mode : PacketMode} {n : Nat} (hpacket : t.packetLoad = s.packetLoad)
    (hregs : t.regs = s.regs) (hmem : t.mem = s.mem) : t.packetAnswer mode n imm = s.packetAnswer mode n imm := by
  simp only [State.packetAnswer, hpacket, hregs, hmem]

end Sys2Proof.Machine

/-- Settles O18: a step keeps both functions (`step_fixed`), and an answer depends on it and its arguments only. -/
theorem platformFunctionsAreFixed : Obligations.PlatformFunctionsAreFixed := by
  intro s t h
  obtain ⟨-, -, hhelper, hpacket⟩ := State.fixed_eq_iff.mp (step_fixed h)
  refine ⟨fun kind id => ?_, fun hinput _ _ => State.helperAnswer_congr hhelper hinput,
    fun hregs hmem _ _ _ => State.packetAnswer_congr hpacket hregs hmem⟩
  rw [State.helperAnswer_eq_none_iff, State.helperAnswer_eq_none_iff, hhelper]

/-- Settles O37: the state after the push and the jump, with the callee's registers of each convention. -/
theorem localCalls : Obligations.LocalCalls := by
  intro s imm hdepth
  rw [exec_callLocal imm (State.depthReached_eq_false_iff.mpr hdepth), State.jumpFar_eq]
  refine ⟨fun hconv => ?pcOnly, fun hconv => ⟨s.calleeRegs, ?linuxAbi, fun _ => State.calleeRegs_arguments hconv,
    fun _ => State.calleeRegs_saved hconv, fun h10 => ?unwritten, fun x h10 => ?written⟩⟩
  case pcOnly => rw [State.pushFrame, State.saved_pcOnly hconv, State.calleeRegs_pcOnly _ hconv]
  case linuxAbi => rw [State.pushFrame, State.saved_linuxAbi hconv]
  case unwritten => rw [State.calleeRegs_r10 hconv, h10, lowered]
  case written => rw [State.calleeRegs_r10 hconv, h10, lowered_written]

/-- Settles O41: EXIT pops the frame that the call pushed, which holds the slot after the call and `s.saved`. -/
theorem callThenReturn : Obligations.CallThenReturn := by
  intro s t u v imm hcall hrun hstack _ hexit
  have hpushed : u.callStack = ⟨s.pc + 1, s.saved⟩ :: s.callStack := by
    rw [hstack, pushed_of_callLocal hcall hrun, State.jumpFar_callStack, State.pushFrame_callStack]
  obtain rfl := Host.Outcome.next.inj ((exec_exit_returns hpushed).symm.trans hexit)
  refine ⟨rfl, rfl, returnRegs_zero .., fun hconv => ?_, fun hconv _ => returnRegs_saved hconv u.regs⟩
  rw [State.saved_pcOnly hconv, returnRegs_none]

/-- Settles O42: `Helper` answers what its function gives at the state's arguments, and the call installs it. -/
theorem helperAnswers : Obligations.HelperAnswers :=
  fun _ _ _ _ _ _ hrow hf hgives =>
    takesAnswer_of_helper (exec_helperCall hrow) (State.helperAnswer_of_givesAt hf hgives)

/-- Settles O39: the frame's saved registers, if it has any, decide what `returnRegs` restores. -/
theorem exitReturns : Obligations.ExitReturns := by
  intro s f rest hs
  rw [exec_exit_returns hs]
  refine ⟨fun hnone => by rw [hnone, returnRegs_none], fun v hv => ?_⟩
  rw [hv]
  exact ⟨returnRegs (some v) s.regs, rfl, returnRegs_zero .., fun _ => returnRegs_arguments v s.regs,
    rfl, rfl, rfl, rfl, rfl⟩

/-- Settles O40: with no frame to pop, EXIT reads R0. -/
theorem exitEnds : Obligations.ExitEnds := by
  intro s hs
  rw [raises, exec_exit_ends hs]
  exact ⟨fun x hx => readReg_written hx, fun hx => readReg_unwritten hx⟩

/-- Settles O43: no answer at the pair, or an answer that is a fault. -/
theorem helperFaults : Obligations.HelperFaults :=
  fun _ _ _ hrow =>
    ⟨fun hnone => raises_unknownHelper (exec_helperCall hrow) (State.helperAnswer_eq_none_iff.mpr hnone),
      fun _ _ hf hgives => raises_helperFault (exec_helperCall hrow) (State.helperAnswer_of_givesAt hf hgives)⟩
end

section
/-! PROOFS. The atomic operations (R430 to R451): what the one update does where its checks pass and which fault it
raises where one fails, then each form as that update, and each computation on words as one on numbers. -/

open Sys2Proof Sys2Proof.Machine

namespace Sys2Proof.Machine

variable {s : State} {r : Region} {addr v base x c : Word64} {n old : Nat} {d src : Reg} {off : Off} {i : Instr}
  {f : Word64 → Word64 → Word64} {op : Nat → Nat → Nat}

/-! ## What is committed -/

/-- The event of an atomic operation shows the stored value at the operation's width (R72, R75). -/
theorem State.commit_events (s : State) (r : Region) (addr : Word64) (n : Nat) (old : Word64) (new : Option Word64) :
    (s.commit r addr n old new).events = s.noted r (.atomic addr n old (new.map (lowBytes n))) := by
  cases new <;> rw [State.commit, State.record_eq] <;> rfl

theorem State.commit_holds (s : State) (r : Region) (addr : Word64) (n : Nat) (old v : Word64) :
    (s.commit r addr n old (some v)).holds addr.toNat n (v.toNat % 2 ^ (8 * n)) := by
  rw [State.commit, State.record_eq]
  exact State.put_holds s addr n v

theorem State.commit_sameOutside (s : State) (r : Region) (addr : Word64) (n : Nat) (old v : Word64) :
    sameOutside s (s.commit r addr n old (some v)) addr.toNat n := by
  rw [State.commit, State.record_eq]
  exact State.put_sameOutside s addr n v

/-- An instruction that ends by committing what it stores and writing `regs` (R430). -/
theorem updatesAtomically_of_commit {new : Option Word64} {regs : Regs}
    (hexec : exec i s =
      .next (State.advance { s.commit r addr n (BitVec.ofNat 64 old) new with regs := regs } 1)) :
    updatesAtomically i s r addr n old (new.map fun v => v.toNat % 2 ^ (8 * n)) regs := by
  refine ⟨_, hexec, ?stored, ?kept, rfl, ?pc, ?event, State.commit_callStack .., State.commit_status ..,
    State.commit_prog .., State.commit_params .., State.commit_helper .., State.commit_packetLoad ..,
    State.commit_draws ..⟩
  case stored =>
    intro w hw
    obtain ⟨v, rfl, rfl⟩ := Option.map_eq_some_iff.mp hw
    exact ⟨State.commit_holds .., State.commit_sameOutside s r addr n _ v⟩
  case kept =>
    intro hnone
    obtain rfl := Option.map_eq_none_iff.mp hnone
    exact State.commit_none_mem ..
  case pc => rw [State.advance_pc, State.commit_pc]
  case event =>
    have hshown : lowBytes n = BitVec.ofNat 64 ∘ fun v => v.toNat % 2 ^ (8 * n) := funext (lowBytes_eq_ofNat n)
    rw [State.advance_events, State.commit_events, hshown, Option.map_map]

/-! ## The update and its checks -/

section
variable {g : Word64 → Option Word64} {k : Word64 → State → Result}

/-- An admitted, aligned update of a seen value (R430). -/
theorem atomicUpdate_of_sees (hn : n ≤ 8) (hadm : s.regionFor (fun q => q.readable && q.writable) addr n = some r)
    (hal : addr.toNat % n = 0) (hv : s.sees r addr.toNat n old) :
    atomicUpdate addr n g s k =
      k (BitVec.ofNat 64 old) (s.commit r addr n (BitVec.ofNat 64 old) (g (BitVec.ofNat 64 old))) := by
  rw [atomicUpdate_ok hadm hal (State.load_of_sees hn hv), ofHostBytes_hostBytes_ofNat _ hn hv.1]

theorem atomicUpdate_unreadable (h : s.regionFor (·.readable) addr n = none) :
    atomicUpdate addr n g s k = raise (.memFault addr n .read) s := by
  simp only [atomicUpdate, h]

theorem atomicUpdate_unwritable (hread : (s.regionFor (·.readable) addr n).isSome = true)
    (h : s.regionFor (fun q => q.readable && q.writable) addr n = none) :
    atomicUpdate addr n g s k = raise (.memFault addr n .write) s := by
  obtain ⟨q, hq⟩ := Option.isSome_iff_exists.mp hread
  simp only [atomicUpdate, hq, h]

theorem atomicUpdate_misaligned (hadm : s.regionFor (fun q => q.readable && q.writable) addr n = some r)
    (hal : addr.toNat % n ≠ 0) : atomicUpdate addr n g s k = raise (.misaligned addr n) s := by
  obtain ⟨q, hq⟩ := State.regionFor_readable hadm
  simp only [atomicUpdate, hq, hadm, if_pos hal]

theorem atomicUpdate_unwritten (hadm : s.regionFor (fun q => q.readable && q.writable) addr n = some r)
    (hal : addr.toNat % n = 0) (hl : s.load r addr.toNat n = none) :
    atomicUpdate addr n g s k = raise (.uninitMemory addr n) s := by
  obtain ⟨q, hq⟩ := State.regionFor_readable hadm
  simp only [atomicUpdate, hq, hadm, if_neg (not_not.mpr hal), hl]

/-- The instruction raises the faults of R430 at `addr`, in the order of the checks. -/
def FaultsAtomically (i : Instr) (s : State) (addr : Word64) (n : Nat) : Prop :=
  (s.regionFor (·.readable) addr n = none → raises i s (.memFault addr n .read)) ∧
  ((s.regionFor (·.readable) addr n).isSome = true → s.regionFor (fun q => q.readable && q.writable) addr n = none →
    raises i s (.memFault addr n .write)) ∧
  ∀ r : Region, s.regionFor (fun q => q.readable && q.writable) addr n = some r →
    (addr.toNat % n ≠ 0 → raises i s (.misaligned addr n)) ∧
    (addr.toNat % n = 0 → r.shared = false → (∃ k < n, s.mem.get (addr.toNat + k) = none) →
      raises i s (.uninitMemory addr n))

theorem faultsAtomically_of_atomicUpdate (hexec : exec i s = atomicUpdate addr n g s k) :
    FaultsAtomically i s addr n := by
  simp only [FaultsAtomically, raises, hexec]
  refine ⟨atomicUpdate_unreadable, atomicUpdate_unwritable, fun r hadm => ⟨atomicUpdate_misaligned hadm, ?_⟩⟩
  rintro hal hpriv ⟨k, hk, hbyte⟩
  exact atomicUpdate_unwritten hadm hal (State.load_eq_none hk (by rwa [State.byteAt_private hpriv]))

end

/-! ## The three forms as one update -/

theorem exists_written_of_ne_unwritten {q : Reg} (h : s.regs[q] ≠ .unwritten) : ∃ y, s.regs[q] = .written y := by
  cases hq : s.regs[q] with
  | written y => exact ⟨y, rfl⟩
  | unwritten => exact absurd hq h

section
variable (hbase : s.regs[d] = .written base) (haddr : addr.toNat = ((base.toNat + off.toInt) % 2 ^ 64).toNat)
include hbase haddr

theorem atomicSimple_eq_atomicUpdate (hx : s.regs[src] = .written x) :
    atomicSimple n f d src off s =
      atomicUpdate addr n (fun old => some (f old x)) s fun _ s' => .next (s'.advance 1) := by
  rw [atomicSimple, readReg_written hbase, readReg_written hx, ← eq_effAddr haddr]

theorem atomicFetch_eq_atomicUpdate (hx : s.regs[src] = .written x) :
    atomicFetch n f d src off s =
      atomicUpdate addr n (fun old => some (f old x)) s fun old s' => finish s' src old 1 := by
  rw [atomicFetch, readReg_written hbase, readReg_written hx, ← eq_effAddr haddr]

theorem atomicCompare_eq_atomicUpdate (hx : s.regs[src] = .written x) (hc : s.regs[(0 : Reg)] = .written c) :
    atomicCompare n d src off s =
      atomicUpdate addr n (fun old => if old = lowBytes n c then some x else none) s
        fun old s' => finish s' 0 old 1 := by
  rw [atomicCompare, readReg_written hbase, readReg_written hx, readReg_written hc, ← eq_effAddr haddr]

theorem atomicSimple_faults (hexec : exec i s = atomicSimple n f d src off s)
    (hreads : ∀ q ∈ [d, src], s.regs[q] ≠ .unwritten) : FaultsAtomically i s addr n := by
  obtain ⟨x, hx⟩ := exists_written_of_ne_unwritten (hreads src (by simp))
  exact faultsAtomically_of_atomicUpdate (hexec.trans (atomicSimple_eq_atomicUpdate hbase haddr hx))

theorem atomicFetch_faults (hexec : exec i s = atomicFetch n f d src off s)
    (hreads : ∀ q ∈ [d, src], s.regs[q] ≠ .unwritten) : FaultsAtomically i s addr n := by
  obtain ⟨x, hx⟩ := exists_written_of_ne_unwritten (hreads src (by simp))
  exact faultsAtomically_of_atomicUpdate (hexec.trans (atomicFetch_eq_atomicUpdate hbase haddr hx))

theorem atomicCompare_faults (hexec : exec i s = atomicCompare n d src off s)
    (hreads : ∀ q ∈ [d, src, 0], s.regs[q] ≠ .unwritten) : FaultsAtomically i s addr n := by
  obtain ⟨x, hx⟩ := exists_written_of_ne_unwritten (hreads src (by simp))
  obtain ⟨c, hc⟩ := exists_written_of_ne_unwritten (hreads 0 (by simp))
  exact faultsAtomically_of_atomicUpdate (hexec.trans (atomicCompare_eq_atomicUpdate hbase haddr hx hc))

end

/-! ## Words and numbers -/

/-- On `n`-byte values the word operation `f` is `op` on numbers; of its second operand it takes the low `n` bytes. -/
def Computes (n : Nat) (f : Word64 → Word64 → Word64) (op : Nat → Nat → Nat) : Prop :=
  ∀ (old : Nat) (x : Word64), old < 2 ^ (8 * n) →
    (f (BitVec.ofNat 64 old) x).toNat % 2 ^ (8 * n) = op old (x.toNat % 2 ^ (8 * n))

theorem computes_onLow {f : Word32 → Word32 → Word32} (h : ∀ a b, (f a b).toNat = op a.toNat b.toNat) :
    Computes 4 (onLow f) op := fun old x hold => by
  have hlow : (low32 (BitVec.ofNat 64 old)).toNat = old := by
    rw [low32_toNat, BitVec.toNat_ofNat]
    omega
  rw [onLow, zext32_toNat, Nat.mod_eq_of_lt (BitVec.isLt _), h, hlow, low32_toNat]

theorem computes_word (h : ∀ a b, (f a b).toNat = op a.toNat b.toNat) : Computes 8 f op := fun old x hold => by
  rw [Nat.mod_eq_of_lt (BitVec.isLt _), h, BitVec.toNat_ofNat, Nat.mod_eq_of_lt hold, Nat.mod_eq_of_lt x.isLt]

/-- An `n`-byte value is the number of its word. -/
theorem toNat_ofNat_of_fits (hn : n ≤ 8) (hold : old < 2 ^ (8 * n)) : (BitVec.ofNat 64 old).toNat = old := by
  have hword : 2 ^ (8 * n) ≤ 2 ^ 64 := Nat.pow_le_pow_right (by decide) (by omega)
  rw [BitVec.toNat_ofNat, Nat.mod_eq_of_lt (hold.trans_le hword)]

/-! ## The three forms where the checks pass -/

section
variable (hn : n ≤ 8) (hbase : s.regs[d] = .written base) (hx : s.regs[src] = .written x)
  (haddr : addr.toNat = ((base.toNat + off.toInt) % 2 ^ 64).toNat)
  (hadm : s.regionFor (fun q => q.readable && q.writable) addr n = some r) (hal : addr.toNat % n = 0)
  (hv : s.sees r addr.toNat n old)
include hn hbase hx haddr hadm hal hv

/-- An operation without FETCH leaves the registers (R431). -/
theorem updatesAtomically_of_atomicSimple (hop : Computes n f op) (hexec : exec i s = atomicSimple n f d src off s) :
    updatesAtomically i s r addr n old (some (op old (x.toNat % 2 ^ (8 * n)))) s.regs := by
  rw [atomicSimple_eq_atomicUpdate hbase haddr hx, atomicUpdate_of_sees hn hadm hal hv] at hexec
  have hupdate := updatesAtomically_of_commit (regs := (s.commit r addr n (BitVec.ofNat 64 old) _).regs) hexec
  rwa [State.commit_regs, Option.map_some, hop old x hv.1] at hupdate

/-- An operation with FETCH leaves the old value in `src` (R431). -/
theorem updatesAtomically_of_atomicFetch (hop : Computes n f op) (hexec : exec i s = atomicFetch n f d src off s) :
    updatesAtomically i s r addr n old (some (op old (x.toNat % 2 ^ (8 * n))))
      (s.regs.set src (.written (BitVec.ofNat 64 old))) := by
  rw [atomicFetch_eq_atomicUpdate hbase haddr hx, atomicUpdate_of_sees hn hadm hal hv] at hexec
  have hupdate := updatesAtomically_of_commit hexec
  rwa [State.commit_regs, Option.map_some, hop old x hv.1] at hupdate

/-- Compare and exchange leaves the old value in R0, whether or not it stores `src` (R441, R451). -/
theorem updatesAtomically_of_atomicCompare (hc : s.regs[(0 : Reg)] = .written c)
    (hexec : exec i s = atomicCompare n d src off s) :
    updatesAtomically i s r addr n old
      (if old = c.toNat % 2 ^ (8 * n) then some (x.toNat % 2 ^ (8 * n)) else none)
      (s.regs.set 0 (.written (BitVec.ofNat 64 old))) := by
  have hmatch : BitVec.ofNat 64 old = lowBytes n c ↔ old = c.toNat % 2 ^ (8 * n) := by
    rw [← BitVec.toNat_inj, lowBytes_toNat, toNat_ofNat_of_fits hn hv.1]
  rw [atomicCompare_eq_atomicUpdate hbase haddr hx hc, atomicUpdate_of_sees hn hadm hal hv] at hexec
  have hupdate := updatesAtomically_of_commit hexec
  rwa [State.commit_regs, apply_ite (Option.map _), Option.map_some, Option.map_none, if_congr hmatch rfl rfl]
    at hupdate

end

end Sys2Proof.Machine

/-- Settles O52: the eight operations are one form, each with what it computes on words of its width. -/
theorem atomicsWithoutFetch : Obligations.AtomicsWithoutFetch := by
  rintro ⟨n, mk, op⟩ hrow
  have hform : n ≤ 8 ∧ ∃ f, Computes n f op ∧
      ∀ d src off s, exec (mk d src off) s = atomicSimple n f d src off s := by
    simp only [List.mem_cons, List.not_mem_nil, or_false, Prod.mk.injEq] at hrow
    obtain ⟨rfl, rfl, rfl⟩ | ⟨rfl, rfl, rfl⟩ | ⟨rfl, rfl, rfl⟩ | ⟨rfl, rfl, rfl⟩ | ⟨rfl, rfl, rfl⟩ |
        ⟨rfl, rfl, rfl⟩ | ⟨rfl, rfl, rfl⟩ | ⟨rfl, rfl, rfl⟩ := hrow
    · exact ⟨by decide, _, computes_onLow BitVec.toNat_add, fun _ _ _ _ => rfl⟩
    · exact ⟨by decide, _, computes_onLow BitVec.toNat_or, fun _ _ _ _ => rfl⟩
    · exact ⟨by decide, _, computes_onLow BitVec.toNat_and, fun _ _ _ _ => rfl⟩
    · exact ⟨by decide, _, computes_onLow BitVec.toNat_xor, fun _ _ _ _ => rfl⟩
    · exact ⟨by decide, _, computes_word BitVec.toNat_add, fun _ _ _ _ => rfl⟩
    · exact ⟨by decide, _, computes_word BitVec.toNat_or, fun _ _ _ _ => rfl⟩
    · exact ⟨by decide, _, computes_word BitVec.toNat_and, fun _ _ _ _ => rfl⟩
    · exact ⟨by decide, _, computes_word BitVec.toNat_xor, fun _ _ _ _ => rfl⟩
  obtain ⟨hn, f, hop, hexec⟩ := hform
  intro s d src off base addr x r old hbase hx haddr hadm hal hv
  exact updatesAtomically_of_atomicSimple hn hbase hx haddr hadm hal hv hop (hexec d src off s)

/-- Settles O53: the ten operations are one form, each with what it computes on words of its width. -/
theorem atomicsWithFetch : Obligations.AtomicsWithFetch := by
  rintro ⟨n, mk, op⟩ hrow
  have hform : n ≤ 8 ∧ ∃ f, Computes n f op ∧
      ∀ d src off s, exec (mk d src off) s = atomicFetch n f d src off s := by
    simp only [List.mem_cons, List.not_mem_nil, or_false, Prod.mk.injEq] at hrow
    obtain ⟨rfl, rfl, rfl⟩ | ⟨rfl, rfl, rfl⟩ | ⟨rfl, rfl, rfl⟩ | ⟨rfl, rfl, rfl⟩ | ⟨rfl, rfl, rfl⟩ |
        ⟨rfl, rfl, rfl⟩ | ⟨rfl, rfl, rfl⟩ | ⟨rfl, rfl, rfl⟩ | ⟨rfl, rfl, rfl⟩ | ⟨rfl, rfl, rfl⟩ := hrow
    · exact ⟨by decide, _, computes_onLow BitVec.toNat_add, fun _ _ _ _ => rfl⟩
    · exact ⟨by decide, _, computes_onLow BitVec.toNat_or, fun _ _ _ _ => rfl⟩
    · exact ⟨by decide, _, computes_onLow BitVec.toNat_and, fun _ _ _ _ => rfl⟩
    · exact ⟨by decide, _, computes_onLow BitVec.toNat_xor, fun _ _ _ _ => rfl⟩
    · exact ⟨by decide, _, computes_onLow (fun _ _ => rfl), fun _ _ _ _ => rfl⟩
    · exact ⟨by decide, _, computes_word BitVec.toNat_add, fun _ _ _ _ => rfl⟩
    · exact ⟨by decide, _, computes_word BitVec.toNat_or, fun _ _ _ _ => rfl⟩
    · exact ⟨by decide, _, computes_word BitVec.toNat_and, fun _ _ _ _ => rfl⟩
    · exact ⟨by decide, _, computes_word BitVec.toNat_xor, fun _ _ _ _ => rfl⟩
    · exact ⟨by decide, _, computes_word (fun _ _ => rfl), fun _ _ _ _ => rfl⟩
  obtain ⟨hn, f, hop, hexec⟩ := hform
  intro s d src off base addr x r old hbase hx haddr hadm hal hv
  exact updatesAtomically_of_atomicFetch hn hbase hx haddr hadm hal hv hop (hexec d src off s)

/-- Settles O54: both widths are `updatesAtomically_of_atomicCompare`. -/
theorem compareAndExchange : Obligations.CompareAndExchange := by
  intro row hrow
  simp only [List.mem_cons, List.not_mem_nil, or_false] at hrow
  obtain rfl | rfl := hrow <;>
  · intro s d src off base addr x c r old hbase hx hc haddr hadm hal hv
    exact updatesAtomically_of_atomicCompare (by decide) hbase hx haddr hadm hal hv hc rfl

/-- Settles O55: whatever the form, an atomic operation whose registers are written is one update, with its checks. -/
theorem atomicFaults : Obligations.AtomicFaults := by
  intro row hrow
  simp only [List.mem_cons, List.not_mem_nil, or_false] at hrow
  obtain rfl | rfl | rfl | rfl | rfl | rfl | rfl | rfl | rfl | rfl | rfl | rfl | rfl | rfl | rfl | rfl | rfl | rfl | rfl
    | rfl := hrow <;>
    intro s d src off base addr hbase hreads haddr
  iterate 4 exact atomicSimple_faults hbase haddr rfl hreads
  iterate 5 exact atomicFetch_faults hbase haddr rfl hreads
  · exact atomicCompare_faults hbase haddr rfl hreads
  iterate 4 exact atomicSimple_faults hbase haddr rfl hreads
  iterate 5 exact atomicFetch_faults hbase haddr rfl hreads
  · exact atomicCompare_faults hbase haddr rfl hreads
end

section
/-! PROOFS. The 64-bit immediates (R470 to R478): LDDW joins its two halves, and a lookup goes on with the answer of its
platform function or raises where there is none. -/

open Sys2Proof Sys2Proof.Machine

namespace Sys2Proof.Machine

/-- The halves do not overlap, so joining them is a sum (R471). -/
theorem joinHalves_toNat (high low : Word32) :
    ((zext32 high <<< 32) ||| zext32 low).toNat = high.toNat * 2 ^ 32 + low.toNat := by
  have hfits : high.toNat * 2 ^ 32 < 2 ^ 64 := by have := high.isLt; omega
  rw [BitVec.toNat_or, BitVec.toNat_shiftLeft, zext32_toNat, zext32_toNat, Nat.shiftLeft_eq, Nat.mod_eq_of_lt hfits,
    ← Nat.shiftLeft_eq, Nat.shiftLeft_add_eq_or_of_lt low.isLt]

section
variable {s : State} {d : Reg} {i : Instr} {imm next : Word32} {o : Option Word64} {q : PlatformQuery}
  {k : Word64 → Result} {m a w : Word64} {v : Nat}

/-! ## One platform function -/

theorem platform_of_some (ho : o = some m) : platform o q s k = k m := by rw [ho, platform_some]

theorem writesOnly_of_platform (hexec : exec i s = platform o q s k) (ho : o = some m) (hk : k m = finish s d w 2)
    (hw : w.toNat = v) : writesOnly i s d v 2 :=
  writesOnly_of_finish (hexec.trans ((platform_of_some ho).trans hk)) hw

theorem raises_of_platform (hexec : exec i s = platform o q s k) (ho : o = none) : raises i s (.platformLookup q) := by
  rw [raises, hexec, ho, platform_none, raise]

/-! ## The value of a map: `map_val` at what the inner function answered (R473, R477) -/

/-- A map value's address, `next` bytes on, for the map that the inner function answered. -/
def loadMapVal (d : Reg) (next : Word32) (s : State) (m : Word64) : Result :=
  platform (tableLookup s.params.mapVal m) (.mapVal m) s fun a => finish s d (a + zext32 next) 2

theorem exec_ldMapValFd : exec (.ldMapValFd d imm next) s =
    platform (tableLookup s.params.mapByFd imm) (.mapByFd imm) s (loadMapVal d next s) := rfl

theorem exec_ldMapValIdx : exec (.ldMapValIdx d imm next) s =
    platform (tableLookup s.params.mapByIdx imm) (.mapByIdx imm) s (loadMapVal d next s) := rfl

theorem writesOnly_of_loadMapVal (hexec : exec i s = platform o q s (loadMapVal d next s)) (ho : o = some m)
    (ha : tableLookup s.params.mapVal m = some a) : writesOnly i s d ((a.toNat + next.toNat) % 2 ^ 64) 2 :=
  writesOnly_of_platform hexec ho (platform_of_some ha) (by rw [BitVec.toNat_add, zext32_toNat])

/-- Where the inner function answers, the fault is that of `map_val` (R511). -/
theorem raises_of_loadMapVal (hexec : exec i s = platform o q s (loadMapVal d next s)) (ho : o = some m)
    (ha : tableLookup s.params.mapVal m = none) : raises i s (.platformLookup (.mapVal m)) :=
  raises_of_platform (hexec.trans (platform_of_some ho)) ha

end

end Sys2Proof.Machine

/-- Settles O56: the two halves joined, as a number (`joinHalves_toNat`). -/
theorem loadConstant : Obligations.LoadConstant :=
  fun _ _ imm next => writesOnly_of_finish rfl (joinHalves_toNat next imm)

/-- Settles O57: four lookups load the answer itself, the two VAL forms are `writesOnly_of_loadMapVal`. -/
theorem platformLookups : Obligations.PlatformLookups := by
  intro s d imm next m a
  refine ⟨fun hm => ⟨?mapFd, ?mapValFd⟩, fun hm => ⟨?mapIdx, ?mapValIdx⟩, fun ha => ?varAddr, fun ha => ?codeAddr⟩
  case mapFd | mapIdx => exact writesOnly_of_platform rfl hm rfl rfl
  case mapValFd => exact writesOnly_of_loadMapVal exec_ldMapValFd hm
  case mapValIdx => exact writesOnly_of_loadMapVal exec_ldMapValIdx hm
  case varAddr | codeAddr => exact writesOnly_of_platform rfl ha rfl rfl

/-- Settles O58: the fault of the one function, or of the inner one first (`raises_of_loadMapVal` where it answers). -/
theorem platformLookupFaults : Obligations.PlatformLookupFaults := by
  intro s d imm next
  refine ⟨fun hm => ⟨?mapFd, ?mapValFd⟩, fun hm => ⟨?mapIdx, ?mapValIdx⟩,
    fun m ha => ⟨fun hm => ?valFd, fun hm => ?valIdx⟩, fun ha => ?varAddr, fun ha => ?codeAddr⟩
  case mapFd | mapIdx => exact raises_of_platform rfl hm
  case mapValFd => exact raises_of_platform exec_ldMapValFd hm
  case mapValIdx => exact raises_of_platform exec_ldMapValIdx hm
  case valFd => exact raises_of_loadMapVal exec_ldMapValFd hm ha
  case valIdx => exact raises_of_loadMapVal exec_ldMapValIdx hm ha
  case varAddr | codeAddr => exact raises_of_platform rfl ha
end

section
/-! PROOFS. The packet loads (R490 to R496): the six are two modes at three widths, and a load that is supplied has the
effect of what `PacketLoad` answers at its arguments. -/

open Sys2Proof Sys2Proof.Machine

namespace Sys2Proof.Machine

variable {s : State} {i : Instr} {src : Reg} {imm : Word32} {n : Nat} {w x : Word64} {mode : PacketMode}
  {f : PlatformFn PacketInput PacketEffect} {e : PacketEffect} {row : Nat × Instr}

/-! ## The six loads -/

/-- The loads with mode ABS, with the number of bytes of each (R491 to R493). -/
def absLoads (imm : Word32) : List (Nat × Instr) := [(4, .ldabsw imm), (2, .ldabsh imm), (1, .ldabsb imm)]

/-- The loads with mode IND, with the number of bytes of each (R494 to R496). -/
def indLoads (src : Reg) (imm : Word32) : List (Nat × Instr) :=
  [(4, .ldindw src imm), (2, .ldindh src imm), (1, .ldindb src imm)]

theorem exec_absLoad (hrow : row ∈ absLoads imm) : exec row.2 s = packetAbs row.1 imm row.2.word s := by
  simp only [absLoads, List.mem_cons, List.not_mem_nil, or_false] at hrow
  obtain rfl | rfl | rfl := hrow <;> rfl

theorem exec_indLoad (hrow : row ∈ indLoads src imm) : exec row.2 s = packetInd row.1 src imm row.2.word s := by
  simp only [indLoads, List.mem_cons, List.not_mem_nil, or_false] at hrow
  obtain rfl | rfl | rfl := hrow <;> rfl

/-! ## Where packet loads are not supplied (R490, R501) -/

theorem State.packetSupplied_eq_false (h : s.params.supports .packet = false ∨ s.packetLoad = none) :
    s.packetSupplied = false := by
  rw [State.packetSupplied]
  obtain hgroup | hnone := h
  · rw [hgroup, Bool.false_and]
  · rw [hnone, Option.isSome_none, Bool.and_false]

theorem packetAbs_unsupplied (h : s.packetSupplied = false) :
    packetAbs n imm w s = raise (.illegalInstruction s.pc w) s := by
  rw [packetAbs, h, if_neg Bool.false_ne_true]

/-- This is found before `x[src]` is read (R511, log 12). -/
theorem packetInd_unsupplied (h : s.packetSupplied = false) :
    packetInd n src imm w s = raise (.illegalInstruction s.pc w) s := by
  rw [packetInd, h, if_neg Bool.false_ne_true]

/-! ## Where they are supplied: `PacketLoad` answers at the load's arguments (R490) -/

theorem State.packetSupplied_of_some (hgroup : s.params.supports .packet = true) (hf : s.packetLoad = some f) :
    s.packetSupplied = true := by
  rw [State.packetSupplied, hgroup, hf, Option.isSome_some, Bool.and_self]

theorem State.packetAnswer_of_givesAt (hf : s.packetLoad = some f)
    (he : givesAt f Config.packetLoad ⟨mode, n, imm, s.regs, s.mem⟩ e) : s.packetAnswer mode n imm = e := by
  simp only [State.packetAnswer, hf, answerAt_of_givesAt he]

theorem exec_absLoad_of_givesAt (hgroup : s.params.supports .packet = true) (hf : s.packetLoad = some f)
    (hrow : row ∈ absLoads imm) (he : givesAt f Config.packetLoad ⟨.abs, row.1, imm, s.regs, s.mem⟩ e) :
    exec row.2 s = packetEffect e row.2.word s := by
  rw [exec_absLoad hrow, packetAbs, if_pos (State.packetSupplied_of_some hgroup hf),
    State.packetAnswer_of_givesAt hf he]

theorem exec_indLoad_of_givesAt (hgroup : s.params.supports .packet = true) (hf : s.packetLoad = some f)
    (hrow : row ∈ indLoads src imm) (hx : s.regs[src] = .written x)
    (he : givesAt f Config.packetLoad ⟨.ind x, row.1, imm, s.regs, s.mem⟩ e) :
    exec row.2 s = packetEffect e row.2.word s := by
  rw [exec_indLoad hrow, packetInd, if_pos (State.packetSupplied_of_some hgroup hf), readReg_written hx,
    State.packetAnswer_of_givesAt hf he]

/-- The value of `src_reg` is an argument of `PacketLoad`, so it is read first (R504). -/
theorem raises_indLoad_unwritten (hgroup : s.params.supports .packet = true) (hf : s.packetLoad = some f)
    (hrow : row ∈ indLoads src imm) (hx : s.regs[src] = .unwritten) : raises row.2 s (.uninitRegister src) := by
  rw [raises, exec_indLoad hrow, packetInd, if_pos (State.packetSupplied_of_some hgroup hf), readReg_unwritten hx,
    raise_next]

/-! ## The effect of an answer (R490, R491) -/

/-- The load installs the answer; what the bytes become is `applyWrites_get`. -/
theorem takesAnswer_of_packetEffect {regs : Regs} {writes : List (Nat × Option Byte)}
    (hexec : exec i s = packetEffect (.ok regs writes) w s) : takesAnswer i s regs writes s.draws :=
  ⟨applyWrites s.params.regions s.mem writes, hexec, applyWrites_get s.params.regions s.mem writes⟩

theorem raises_of_packetFault {fault : Fault} (hexec : exec i s = packetEffect (.fault fault) w s) :
    raises i s fault := hexec

theorem raises_of_packetUndefined (hexec : exec i s = packetEffect .undefined w s) :
    raises i s (.illegalInstruction s.pc w) := hexec

end Sys2Proof.Machine

/-- Settles O59: a supplied load has the effect of its answer, an IND load once it has read `src_reg`. -/
theorem packetAnswers : Obligations.PacketAnswers := by
  intro s f imm hgroup hf
  refine ⟨fun row hrow => ⟨fun _ _ he => ?absTakes, fun _ he => ?absFaults⟩, fun src row hrow =>
    ⟨fun hx => ?indUnwritten, fun x hx => ⟨fun _ _ he => ?indTakes, fun _ he => ?indFaults⟩⟩⟩
  case absTakes => exact takesAnswer_of_packetEffect (exec_absLoad_of_givesAt hgroup hf hrow he)
  case absFaults => exact raises_of_packetFault (exec_absLoad_of_givesAt hgroup hf hrow he)
  case indUnwritten => exact raises_indLoad_unwritten hgroup hf hrow hx
  case indTakes => exact takesAnswer_of_packetEffect (exec_indLoad_of_givesAt hgroup hf hrow hx he)
  case indFaults => exact raises_of_packetFault (exec_indLoad_of_givesAt hgroup hf hrow hx he)

/-- Settles O60: not supplied, each load is refused before it reads a register; supplied, it has the effect of an
undefined answer. -/
theorem packetLoadsIllegal : Obligations.PacketLoadsIllegal := by
  intro s src imm
  refine ⟨fun hmissing i hi => ?unsupplied, fun f hgroup hf =>
    ⟨fun row hrow he => ?absUndefined, fun row hrow x hx he => ?indUndefined⟩⟩
  case unsupplied =>
    have hsupplied := State.packetSupplied_eq_false hmissing
    simp only [List.mem_cons, List.not_mem_nil, or_false] at hi
    obtain rfl | rfl | rfl | rfl | rfl | rfl := hi
    iterate 3 exact packetAbs_unsupplied hsupplied
    iterate 3 exact packetInd_unsupplied hsupplied
  case absUndefined => exact raises_of_packetUndefined (exec_absLoad_of_givesAt hgroup hf hrow he)
  case indUndefined => exact raises_of_packetUndefined (exec_indLoad_of_givesAt hgroup hf hrow hx he)
end

section
/-! PROOFS. Exceptions (R500, R503, R508, R512): a step that faults has raised the fault and done nothing else. Settles
the statement on faulting steps, and those on `JumpIntoWide` and `CallDepth`. -/

open Sys2Proof Sys2Proof.Machine

namespace Sys2Proof.Machine

variable {s t : State} {i : Instr} {f : Fault}

/-- The status tells which fault stopped the machine. -/
theorem Stopped.eq_of_status (h : Stopped s t) (hf : t.status = .faulted f) : t = { s with status := .faulted f } := by
  obtain ⟨g, rfl⟩ := h
  obtain rfl := Status.faulted.inj hf
  rfl

/-- An instruction that ends in a fault has raised it: whatever else it could have done keeps the status or ends the run
(R500, R512). -/
theorem Did.stopped_of_faulted (h : Did i s t) (hrun : s.status = .running) (hf : t.status = .faulted f) :
    Stopped s t := by
  have hchanged : t.status ≠ s.status := by simp [hf, hrun]
  cases h.controlChange with
  | kept hkept => exact absurd (State.control_eq_iff.mp hkept).2 hchanged
  | stopped hstop => exact hstop
  | pushed _ _ _ _ hstatus => exact absurd hstatus hchanged
  | popped _ _ _ hstatus => exact absurd hstatus hchanged
  | ended x _ _ _ hend => subst hend; cases hf

/-- Fetch refuses the second slot of a wide instruction, before it reads the slot (R114, R503). -/
theorem fetch_secondSlot (hin : ¬ (s.pc < 0 ∨ (s.prog.length : Int) ≤ s.pc))
    (hsecond : isSecondSlot s.params.endian s.prog s.pc.toNat = true) : fetch s = .error (.jumpIntoWide s.pc) := by
  rw [fetch, if_neg hin, if_pos hsecond]

theorem State.depthReached_of_le {n : Nat} (hmax : s.params.maxCallDepth = some n) (hn : n ≤ s.callStack.length) :
    s.depthReached = true := by
  simpa [State.depthReached, hmax] using hn

/-- A call at the depth limit faults (R386, R508). -/
theorem raises_callDepth (imm : Word32) (hd : s.depthReached = true) : raises (.callLocal imm) s (.callDepth s.pc) :=
  if_pos hd

end Sys2Proof.Machine

/-- Settles O16: both where fetch raised the fault and where the instruction did, the step ends in `Stopped`. -/
theorem faultChangesOnlyStatus : Obligations.FaultChangesOnlyStatus := by
  intro s t f h hf
  obtain ⟨hrun, ⟨g, -, hraised⟩ | ⟨i, -, hexec⟩⟩ := step_cases h
  · exact Stopped.eq_of_status ⟨g, hraised⟩ hf
  · exact ((exec_cases hexec).stopped_of_faulted hrun hf).eq_of_status hf

/-- Settles O13: `pc` is in the program, so the check for a second slot is the one that decides. -/
theorem fetchAtSecondSlot : Obligations.FetchAtSecondSlot := by
  intro s hrun hnonneg hlt hsecond
  have hin : ¬ (s.pc < 0 ∨ (s.prog.length : Int) ≤ s.pc) := by omega
  exact step_of_fetch_error hrun (fetch_secondSlot hin hsecond)

/-- Settles O38: at the limit the call faults; with no limit it pushes its frame and jumps, which keeps the status. -/
theorem callDepthLimit : Obligations.CallDepthLimit := by
  refine fun s imm => ⟨fun n hmax hn => raises_callDepth imm (State.depthReached_of_le hmax hn), fun hnone => ?_⟩
  have hd : s.depthReached = false := State.depthReached_eq_false_iff.mpr (by simp [hnone])
  exact ⟨s.pushFrame.jumpFar imm, exec_callLocal imm hd, rfl⟩
end
